-- ==== Sys2Proof/Word.lean ====
section
/-! DEFINITION. The machine words of DPCR: bytes, 32-bit operands, 64-bit operands and the 136-bit command record
(00_scope.md R9, 30_encoding.md R81). -/

namespace Sys2Proof

/-- A byte (R9). -/
abbrev Byte := BitVec 8

/-- A command operand or a response value (R9: `A0`..`A3`, `R0`, `R1` are 32 bits). -/
abbrev Word := BitVec 32

/-- A 64-bit operand `A2 ++ A3`: a time in ticks or a power in attowatts (R9, R88). -/
abbrev DWord := BitVec 64

/-- A command record: 17 bytes read as one 136-bit string, bit 135 the most significant bit of byte 0 (R81). -/
abbrev Record := BitVec 136

/-- A table with cells at rising natural-number keys; what an unlisted key reads as is said where a table is read. -/
abbrev Cells (α : Type) := List (Nat × α)

end Sys2Proof
end

