-- ==== Sys2Proof/Config.lean ====
section
/-! DEFINITION. What an implementation of DPCR fixes: the parameters of 00_scope.md R8 at their defaults, the band table of
45_channel_table.md R241 and R242 with its two OPEN rows as free values, and the free contents of the byte buffer
(10_state.md R41). -/

namespace Sys2Proof

/-- The supported bands (R8: `SUPPORTED_BANDS` = 1, 2, 20, 21). -/
inductive Band where
  | b1 | b2 | b20 | b21
deriving DecidableEq, Repr

/-- One row of `BAND_TABLE`: three frequencies in kHz (32 bits) and two channel numbers (16 bits) (R241). -/
structure BandParams where
  /-- centre frequency of the first channel, kHz -/
  start : Word
  /-- centre frequency of the last channel, kHz -/
  stop : Word
  /-- distance of two neighbouring channels, kHz -/
  step : Word
  /-- first channel number -/
  nStart : BitVec 16
  /-- last channel number -/
  nEnd : BitVec 16
deriving DecidableEq, Repr, Inhabited

/-- Index of the last channel of a band, `nEnd - nStart`. -/
def BandParams.lastIndex (p : BandParams) : Nat := p.nEnd.toNat - p.nStart.toNat

namespace Config

/-- `SLOTS_PER_FRAME` (R8). -/
def slotsPerFrame : Nat := 24
/-- `TICK_HZ` (R8): ticks per second of the unit of time; no rule computes with it. -/
def tickHz : Nat := 1728000
/-- `SLOT_TICKS` (R8). -/
def slotTicks : Nat := 720
/-- `FRAME_TICKS` (R8). -/
def frameTicks : Nat := 17280
/-- `FLOOR_DBM` (R8). -/
def floorDbm : Int := -150
/-- `BUF_SIZE` (R8). -/
def bufSize : Nat := 2048

/-- IE type code of the Network Beacon message (41_mac_headers.md R160, R161). -/
def ieNb : BitVec 6 := 8#6
/-- IE type code of the Cluster Beacon message (R160, R161). -/
def ieCb : BitVec 6 := 9#6
/-- IE type code of the Association Request message (R160, R161). -/
def ieAreq : BitVec 6 := 10#6
/-- IE type code of the Association Response message (R160, R161). -/
def ieArsp : BitVec 6 := 11#6
/-- IE type code of the Random Access Resource IE (R160, R161). -/
def ieRar : BitVec 6 := 19#6
/-- IE type code of the RD Capability IE (R160, R161). -/
def ieRdc : BitVec 6 := 20#6
/-- `IE_ACI`, IE type code of the Association Control IE (R8, R160, R161). -/
def ieAci : BitVec 6 := 28#6

/-- Default row of band 1 (R242). -/
def row1 : BandParams := ⟨1881792#32, 1899072#32, 864#32, 1657#16, 1677#16⟩
/-- Default row of band 2 (R242). -/
def row2 : BandParams := ⟨1901664#32, 1918944#32, 864#32, 1680#16, 1700#16⟩

/-- The band table made of the two default rows and rows for bands 20 and 21. -/
def tableOf (p20 p21 : BandParams) : Band → BandParams
  | .b1 => row1
  | .b2 => row2
  | .b20 => p20
  | .b21 => p21

/-- The five constraints any instantiation of `BAND_TABLE` satisfies (R241). That `stop` is below 2^32 is its type's. -/
structure LegalTable (t : Band → BandParams) : Prop where
  /-- R241 (a) -/
  step_pos : ∀ b, 0 < (t b).step.toNat
  /-- R241 (a) -/
  start_le_end : ∀ b, (t b).nStart.toNat ≤ (t b).nEnd.toNat
  /-- R241 (b) -/
  stop_eq : ∀ b, (t b).stop.toNat = (t b).start.toNat + (t b).lastIndex * (t b).step.toNat
  /-- R241 (c) -/
  disjoint : ∀ b c, b ≠ c → (t b).nEnd.toNat < (t c).nStart.toNat ∨ (t c).nEnd.toNat < (t b).nStart.toNat
  /-- R241 (d) -/
  distinct : ∀ b c k m, k ≤ (t b).lastIndex → m ≤ (t c).lastIndex →
    (t b).start.toNat + k * (t b).step.toNat = (t c).start.toNat + m * (t c).step.toNat → b = c ∧ k = m
  /-- R241 (e) -/
  end_le : ∀ b, (t b).nEnd.toNat ≤ 8191

/-- R241 can be met: a witness, needed only so that `OpenRows` is known to have a member. -/
theorem legalTable_witness :
    LegalTable (tableOf ⟨1#32, 1#32, 1#32, 1#16, 1#16⟩ ⟨2#32, 2#32, 1#32, 2#16, 2#16⟩) := by
  constructor
  · intro b; cases b <;> decide
  · intro b; cases b <;> decide
  · intro b; cases b <;> decide
  · intro b c h; cases b <;> cases c <;> first | exact absurd rfl h | decide
  · intro b c k m hk hm h
    cases b <;> cases c <;> simp_all [tableOf, row1, row2, BandParams.lastIndex] <;> omega
  · intro b; cases b <;> decide

/-- Rows for the two bands whose parameters are OPEN (R242), with the constraints that tie them to the whole table. The
default field values serve only to show that such rows exist. -/
structure OpenRows where
  /-- the row of band 20 -/
  p20 : BandParams := ⟨1#32, 1#32, 1#32, 1#16, 1#16⟩
  /-- the row of band 21 -/
  p21 : BandParams := ⟨2#32, 2#32, 1#32, 2#16, 2#16⟩
  /-- R241 -/
  legal : LegalTable (tableOf p20 p21) := by exact legalTable_witness
deriving Inhabited

/-- DESIGN CHOICE (safe, log entry 6): `BAND_TABLE[20]` and `BAND_TABLE[21]` are OPEN (R242, U12), so they are free: nothing
is known of them but R241. -/
opaque openRows : OpenRows

/-- `BAND_TABLE` (R241, R242). -/
def bandTable : Band → BandParams := tableOf openRows.p20 openRows.p21

/-- DESIGN CHOICE (safe, log entry 4): what a byte of `BUF` that no command has written since reset holds (10_state.md R41,
93_implementation_defined.md U1). It is free, constant until written, and one function for each assertion of reset. -/
opaque unwrittenByte : Nat → Nat → Byte

end Config

end Sys2Proof
end

