-- ==== Sys2Proof/Syntax.lean ====
section
/-! DEFINITION. The syntax of DPCR: the eleven structure types and their field registers (10_state.md R21 to R31), the
names of the registers a `SET` or `GET` selects (30_encoding.md R85 to R87), and `Instr`, one constructor per row of
spec/opcode_table.json. -/

namespace Sys2Proof

/-- The structure types, one bank of field registers each (R20, R85). -/
inductive Bank where
  | mht | bh | uh | mux | nb | cb | areq | arsp | rar | rdc | aci
deriving DecidableEq, Repr

/-- The three elements of an array field `[0..2]` (R25). -/
structure Triple (α : Type) where
  /-- element 0 -/
  e0 : α
  /-- element 1 -/
  e1 : α
  /-- element 2 -/
  e2 : α
deriving DecidableEq, Repr

/-- The six elements of an array field `[0..5]` (R27, R28). -/
structure Six (α : Type) where
  /-- element 0 -/
  e0 : α
  /-- element 1 -/
  e1 : α
  /-- element 2 -/
  e2 : α
  /-- element 3 -/
  e3 : α
  /-- element 4 -/
  e4 : α
  /-- element 5 -/
  e5 : α
deriving DecidableEq, Repr

/-- An index 0..2 of an array field (R87). -/
inductive Idx3 where
  | i0 | i1 | i2
deriving DecidableEq, Repr

/-- An index 0..5 of an array field (R87). -/
inductive Idx6 where
  | i0 | i1 | i2 | i3 | i4 | i5
deriving DecidableEq, Repr

/-- Bank `MHT`, the MAC Header Type (R21). Every register resets to 0 (R40). -/
structure MhtBank where
  /-- protocol version field -/
  version : BitVec 2 := 0#2
  /-- MAC security field -/
  security : BitVec 2 := 0#2
  /-- which header follows: 'Variants: DATA, BEACON, UNICAST, RD_BROADCAST, ESCAPE' -/
  headerType : BitVec 4 := 0#4
deriving DecidableEq, Repr

/-- Bank `BH`, the Beacon Header (R22). Every register resets to 0 (R40). -/
structure BhBank where
  /-- network identifier -/
  networkId : BitVec 24 := 0#24
  /-- address of the sender -/
  transmitterAddress : BitVec 32 := 0#32
deriving DecidableEq, Repr

/-- Bank `UH`, the Unicast Header (R23). Every register resets to 0 (R40). -/
structure UhBank where
  /-- the header's Reset bit -/
  reset : BitVec 1 := 0#1
  /-- PDU sequence number -/
  sequenceNumber : BitVec 12 := 0#12
  /-- address of the receiver -/
  receiverAddress : BitVec 32 := 0#32
  /-- address of the sender -/
  transmitterAddress : BitVec 32 := 0#32
deriving DecidableEq, Repr

/-- Bank `MUX`, the multiplexing header (R24). Every register resets to 0 (R40). -/
structure MuxBank where
  /-- which of the four header forms is used -/
  macExt : BitVec 2 := 0#2
  /-- IE type code -/
  ieType : BitVec 6 := 0#6
  /-- payload length in bytes, carried only in forms 1, 2 and 3 -/
  length : BitVec 16 := 0#16
deriving DecidableEq, Repr

/-- Bank `NB`, the Network Beacon message (R25). Every register resets to 0 (R40). -/
structure NbBank where
  /-- flag: clustersMaxTxPower is present -/
  txPowerFlag : BitVec 1 := 0#1
  /-- power-constraint bit -/
  powerConst : BitVec 1 := 0#1
  /-- flag: currentClusterChannel is present -/
  currentFlag : BitVec 1 := 0#1
  /-- count of additional network beacon channels that follow -/
  nbChannels : BitVec 2 := 0#2
  /-- network beacon period code -/
  nbPeriod : BitVec 4 := 0#4
  /-- cluster beacon period code -/
  cbPeriod : BitVec 4 := 0#4
  /-- channel number of the next cluster channel -/
  nextClusterChannel : BitVec 13 := 0#13
  /-- time to next, a 'multi-byte integer' field -/
  timeToNext : BitVec 32 := 0#32
  /-- optional TX power code -/
  clustersMaxTxPower : BitVec 4 := 0#4
  /-- optional current cluster channel -/
  currentClusterChannel : BitVec 13 := 0#13
  /-- optional extra channels; the first nbChannels entries are carried -/
  additionalChannel : Triple (BitVec 13) := ⟨0#13, 0#13, 0#13⟩
deriving DecidableEq, Repr

/-- Bank `CB`, the Cluster Beacon message (R26). Every register resets to 0 (R40). -/
structure CbBank where
  /-- system frame number -/
  sfn : BitVec 8 := 0#8
  /-- flag: clustersMaxTxPower is present -/
  txPowerFlag : BitVec 1 := 0#1
  /-- power-constraint bit -/
  powerConst : BitVec 1 := 0#1
  /-- flag: frameOffset is present -/
  foFlag : BitVec 1 := 0#1
  /-- flag: nextClusterChannel is present -/
  nextChannelFlag : BitVec 1 := 0#1
  /-- flag: timeToNext is present -/
  timeToNextFlag : BitVec 1 := 0#1
  /-- network beacon period code -/
  nbPeriod : BitVec 4 := 0#4
  /-- cluster beacon period code -/
  cbPeriod : BitVec 4 := 0#4
  /-- count-to-trigger code -/
  countToTrigger : BitVec 4 := 0#4
  /-- relative quality code -/
  relQuality : BitVec 2 := 0#2
  /-- minimum quality code -/
  minQuality : BitVec 2 := 0#2
  /-- optional TX power code -/
  clustersMaxTxPower : BitVec 4 := 0#4
  /-- optional frame offset -/
  frameOffset : BitVec 8 := 0#8
  /-- optional next cluster channel -/
  nextClusterChannel : BitVec 13 := 0#13
  /-- optional time to next -/
  timeToNext : BitVec 32 := 0#32
deriving DecidableEq, Repr

/-- Bank `AREQ`, the Association Request message (R27). Every register resets to 0 (R40). -/
structure AreqBank where
  /-- setup cause code -/
  setupCause : BitVec 3 := 0#3
  /-- count of flow IDs carried -/
  numberOfFlows : BitVec 3 := 0#3
  /-- power-constraint bit -/
  powerConst : BitVec 1 := 0#1
  /-- flag: the sender is FT-capable; the beacon-period and channel fields are present -/
  ftMode : BitVec 1 := 0#1
  /-- flag: currentClusterChannel is present (only together with ftMode) -/
  currentFlag : BitVec 1 := 0#1
  /-- HARQ processes, transmit -/
  harqProcessesTx : BitVec 3 := 0#3
  /-- maximum HARQ retransmission delay code, transmit -/
  maxHarqReTx : BitVec 5 := 0#5
  /-- HARQ processes, receive -/
  harqProcessesRx : BitVec 3 := 0#3
  /-- maximum HARQ retransmission delay code, receive -/
  maxHarqReRx : BitVec 5 := 0#5
  /-- flow identifiers -/
  flowId : Six (BitVec 6) := ⟨0#6, 0#6, 0#6, 0#6, 0#6, 0#6⟩
  /-- optional network beacon period code -/
  nbPeriod : BitVec 4 := 0#4
  /-- optional cluster beacon period code -/
  cbPeriod : BitVec 4 := 0#4
  /-- optional next cluster channel -/
  nextClusterChannel : BitVec 13 := 0#13
  /-- optional time to next -/
  timeToNext : BitVec 32 := 0#32
  /-- optional current cluster channel -/
  currentClusterChannel : BitVec 13 := 0#13
deriving DecidableEq, Repr

/-- Bank `ARSP`, the Association Response message (R28). Every register resets to 0 (R40). -/
structure ArspBank where
  /-- outcome: 1 accepted, 0 rejected -/
  ackNack : BitVec 1 := 0#1
  /-- flag: the two HARQ bytes are present (only when accepted) -/
  harqMod : BitVec 1 := 0#1
  /-- count of flow IDs carried (only when accepted) -/
  numberOfFlows : BitVec 3 := 0#3
  /-- flag: groupId and resourceTag are present (only when accepted) -/
  group : BitVec 1 := 0#1
  /-- reject cause code (only when rejected) -/
  rejectCause : BitVec 4 := 0#4
  /-- back-off timer code (only when rejected) -/
  rejectTime : BitVec 4 := 0#4
  /-- HARQ processes, receive -/
  harqProcessesRx : BitVec 3 := 0#3
  /-- maximum HARQ retransmission delay code, receive -/
  maxHarqReRx : BitVec 5 := 0#5
  /-- HARQ processes, transmit -/
  harqProcessesTx : BitVec 3 := 0#3
  /-- maximum HARQ retransmission delay code, transmit -/
  maxHarqReTx : BitVec 5 := 0#5
  /-- flow identifiers -/
  flowId : Six (BitVec 6) := ⟨0#6, 0#6, 0#6, 0#6, 0#6, 0#6⟩
  /-- group identifier -/
  groupId : BitVec 7 := 0#7
  /-- resource tag -/
  resourceTag : BitVec 7 := 0#7
deriving DecidableEq, Repr

/-- Bank `RAR`, the Random Access Resource IE (R29). Every register resets to 0 (R40). -/
structure RarBank where
  /-- the spec's `repeat`: repeat mode; non-zero means repetition and validity are present -/
  repeatMode : BitVec 2 := 0#2
  /-- flag: sfnOffset is present -/
  sfnFlag : BitVec 1 := 0#1
  /-- flag: channel is present -/
  channelFlag : BitVec 1 := 0#1
  /-- flag: channel2 is present -/
  chan2Flag : BitVec 1 := 0#1
  /-- first subslot of the resource -/
  startSubslot : BitVec 8 := 0#8
  /-- unit of length (0 subslots, 1 slots) -/
  lengthType : BitVec 1 := 0#1
  /-- length of the resource -/
  length : BitVec 7 := 0#7
  /-- unit of maxRachLength -/
  maxLenType : BitVec 1 := 0#1
  /-- maximum random-access transmission length -/
  maxRachLength : BitVec 4 := 0#4
  /-- contention window minimum code -/
  cwMinSig : BitVec 3 := 0#3
  /-- response delay bit -/
  dectDelay : BitVec 1 := 0#1
  /-- response window code -/
  responseWindow : BitVec 4 := 0#4
  /-- contention window maximum code -/
  cwMaxSig : BitVec 3 := 0#3
  /-- optional repetition interval -/
  repetition : BitVec 8 := 0#8
  /-- optional validity count -/
  validity : BitVec 8 := 0#8
  /-- optional SFN value from which the resource is valid -/
  sfnOffset : BitVec 8 := 0#8
  /-- optional channel of the resource -/
  channel : BitVec 13 := 0#13
  /-- optional channel of the response -/
  channel2 : BitVec 13 := 0#13
deriving DecidableEq, Repr

/-- Bank `RDC`, the RD Capability IE (R30). Every register resets to 0 (R40). -/
structure RdcBank where
  /-- number of additional PHY capability sets announced (none is carried, 44_information_elements.md rule R222) -/
  numPhyCap : BitVec 3 := 0#3
  /-- release code -/
  release : BitVec 5 := 0#5
  /-- group assignment supported -/
  groupAss : BitVec 1 := 0#1
  /-- paging supported -/
  paging : BitVec 1 := 0#1
  /-- operating modes code -/
  operatingModes : BitVec 2 := 0#2
  /-- mesh supported -/
  mesh : BitVec 1 := 0#1
  /-- scheduled access supported -/
  schedul : BitVec 1 := 0#1
  /-- MAC security code -/
  macSecurity : BitVec 3 := 0#3
  /-- DLC service type code -/
  dlcServiceType : BitVec 3 := 0#3
  /-- power class code -/
  rdPowerClass : BitVec 3 := 0#3
  /-- maximum spatial streams for reception code -/
  maxNssRx : BitVec 2 := 0#2
  /-- reception of TX diversity code -/
  rxForTxDiversity : BitVec 2 := 0#2
  /-- RX gain code -/
  rxGain : BitVec 4 := 0#4
  /-- maximum MCS code -/
  maxMcs : BitVec 4 := 0#4
  /-- soft-buffer size code -/
  softBufferSize : BitVec 4 := 0#4
  /-- number of HARQ processes code -/
  numHarqProcesses : BitVec 2 := 0#2
  /-- HARQ feedback delay code -/
  harqFeedbackDelay : BitVec 4 := 0#4
deriving DecidableEq, Repr

/-- Bank `ACI`, the Association Control IE (R31). Every register resets to 0 (R40). -/
structure AciBank where
  /-- cluster beacon monitoring bit -/
  cbM : BitVec 1 := 0#1
  /-- downlink data reception code -/
  dlDataReception : BitVec 3 := 0#3
  /-- uplink period code -/
  ulPeriod : BitVec 4 := 0#4
deriving DecidableEq, Repr

/-- The registers of bank `MHT` (R21, R86). -/
inductive MhtField where
  | version
  | security
  | headerType
deriving DecidableEq, Repr

/-- The registers of bank `BH` (R22, R86). -/
inductive BhField where
  | networkId
  | transmitterAddress
deriving DecidableEq, Repr

/-- The registers of bank `UH` (R23, R86). -/
inductive UhField where
  | reset
  | sequenceNumber
  | receiverAddress
  | transmitterAddress
deriving DecidableEq, Repr

/-- The registers of bank `MUX` (R24, R86). -/
inductive MuxField where
  | macExt
  | ieType
  | length
deriving DecidableEq, Repr

/-- The registers of bank `NB` (R25, R86). -/
inductive NbField where
  | txPowerFlag
  | powerConst
  | currentFlag
  | nbChannels
  | nbPeriod
  | cbPeriod
  | nextClusterChannel
  | timeToNext
  | clustersMaxTxPower
  | currentClusterChannel
  | additionalChannel (i : Idx3)
deriving DecidableEq, Repr

/-- The registers of bank `CB` (R26, R86). -/
inductive CbField where
  | sfn
  | txPowerFlag
  | powerConst
  | foFlag
  | nextChannelFlag
  | timeToNextFlag
  | nbPeriod
  | cbPeriod
  | countToTrigger
  | relQuality
  | minQuality
  | clustersMaxTxPower
  | frameOffset
  | nextClusterChannel
  | timeToNext
deriving DecidableEq, Repr

/-- The registers of bank `AREQ` (R27, R86). -/
inductive AreqField where
  | setupCause
  | numberOfFlows
  | powerConst
  | ftMode
  | currentFlag
  | harqProcessesTx
  | maxHarqReTx
  | harqProcessesRx
  | maxHarqReRx
  | flowId (i : Idx6)
  | nbPeriod
  | cbPeriod
  | nextClusterChannel
  | timeToNext
  | currentClusterChannel
deriving DecidableEq, Repr

/-- The registers of bank `ARSP` (R28, R86). -/
inductive ArspField where
  | ackNack
  | harqMod
  | numberOfFlows
  | group
  | rejectCause
  | rejectTime
  | harqProcessesRx
  | maxHarqReRx
  | harqProcessesTx
  | maxHarqReTx
  | flowId (i : Idx6)
  | groupId
  | resourceTag
deriving DecidableEq, Repr

/-- The registers of bank `RAR` (R29, R86). -/
inductive RarField where
  | repeatMode
  | sfnFlag
  | channelFlag
  | chan2Flag
  | startSubslot
  | lengthType
  | length
  | maxLenType
  | maxRachLength
  | cwMinSig
  | dectDelay
  | responseWindow
  | cwMaxSig
  | repetition
  | validity
  | sfnOffset
  | channel
  | channel2
deriving DecidableEq, Repr

/-- The registers of bank `RDC` (R30, R86). -/
inductive RdcField where
  | numPhyCap
  | release
  | groupAss
  | paging
  | operatingModes
  | mesh
  | schedul
  | macSecurity
  | dlcServiceType
  | rdPowerClass
  | maxNssRx
  | rxForTxDiversity
  | rxGain
  | maxMcs
  | softBufferSize
  | numHarqProcesses
  | harqFeedbackDelay
deriving DecidableEq, Repr

/-- The registers of bank `ACI` (R31, R86). -/
inductive AciField where
  | cbM
  | dlDataReception
  | ulPeriod
deriving DecidableEq, Repr

/-- One field register of one bank, an array element with its index: what a `SET` or `GET` names (R85 to R87). -/
inductive Reg where
  | mht (f : MhtField)
  | bh (f : BhField)
  | uh (f : UhField)
  | mux (f : MuxField)
  | nb (f : NbField)
  | cb (f : CbField)
  | areq (f : AreqField)
  | arsp (f : ArspField)
  | rar (f : RarField)
  | rdc (f : RdcField)
  | aci (f : AciField)
deriving DecidableEq, Repr

/-- The eleven banks (R20). -/
structure Banks where
  /-- bank `MHT` -/
  mht : MhtBank := {}
  /-- bank `BH` -/
  bh : BhBank := {}
  /-- bank `UH` -/
  uh : UhBank := {}
  /-- bank `MUX` -/
  mux : MuxBank := {}
  /-- bank `NB` -/
  nb : NbBank := {}
  /-- bank `CB` -/
  cb : CbBank := {}
  /-- bank `AREQ` -/
  areq : AreqBank := {}
  /-- bank `ARSP` -/
  arsp : ArspBank := {}
  /-- bank `RAR` -/
  rar : RarBank := {}
  /-- bank `RDC` -/
  rdc : RdcBank := {}
  /-- bank `ACI` -/
  aci : AciBank := {}
deriving DecidableEq, Repr

/-- The parameter `BANDPARM` reads (R244). -/
inductive BandSel where
  | start | stop | step | nStart | nEnd
deriving DecidableEq, Repr

/-- The subslot field `SSGET` reads (R252). -/
inductive SubslotSel where
  | status | rssi | duration
deriving DecidableEq, Repr

/-- The coordinate `TLOC` answers (R254). -/
inductive TimeSel where
  | frame | slot | subslot | offset | sfn
deriving DecidableEq, Repr

/-- One constructor per row of spec/opcode_table.json: the 28 host commands (R82), then the 15 wire rows (R90), which are
the structures `SER` writes and `DES` reads (log entry 2). -/
inductive Instr where
  /-- `NOP` (R127) -/
  | nop
  /-- `RST bank` (R111) -/
  | rst (b : Bank)
  /-- `SET bank.field[idx], value` (R112) -/
  | set (r : Reg) (value : Word)
  /-- `GET bank.field[idx]` (R114) -/
  | get (r : Reg)
  /-- `SIZE bank` (R115) -/
  | size (b : Bank)
  /-- `SER bank` (R116) -/
  | ser (b : Bank)
  /-- `DES bank` (R117) -/
  | des (b : Bank)
  /-- `DISP bank` (R122) -/
  | disp (b : Bank)
  /-- `SEEK addr` (R123) -/
  | seek (addr : Word)
  /-- `TELL` (R124) -/
  | tell
  /-- `BUFWR addr, byte` (R125) -/
  | bufwr (addr value : Word)
  /-- `BUFRD addr` (R126) -/
  | bufrd (addr : Word)
  /-- `CHINIT band, mu` (R245) -/
  | chinit (band mu : Word)
  /-- `CHVALID band` (R247) -/
  | chvalid (band : Word)
  /-- `BANDPARM band, sel` (R244) -/
  | bandparm (band : Word) (sel : BandSel)
  /-- `CFREQ band, n` (R248) -/
  | cfreq (band n : Word)
  /-- `CHFREQ n` (R249) -/
  | chfreq (n : Word)
  /-- `CHID f` (R250) -/
  | chid (f : Word)
  /-- `BIN band, n` (R251) -/
  | bin (band n : Word)
  /-- `SSGET band, n, slot, subslot, sel` (R252) -/
  | ssget (band n : Word) (slot subslot : Byte) (sel : SubslotSel)
  /-- `SSSET band, n, slot, subslot, status, rssi` (R253) -/
  | ssset (band n : Word) (slot subslot : Byte) (status : BitVec 2) (rssi : BitVec 16)
  /-- `TLOC band, sel, t` (R254) -/
  | tloc (band : Word) (sel : TimeSel) (t : DWord)
  /-- `PWADD band, n, p` (R282) -/
  | pwadd (band n : Word) (p : DWord)
  /-- `PWSUB band, n, p` (R283) -/
  | pwsub (band n : Word) (p : DWord)
  /-- `RSSI band, n` (R286) -/
  | rssi (band n : Word)
  /-- `W2DBM P` (R287) -/
  | w2dbm (p : DWord)
  /-- `STCLR` (R128) -/
  | stclr
  /-- `STGET` (R129) -/
  | stget
  /-- wire row `MHT` (R140) -/
  | mht (w : MhtBank)
  /-- wire row `BH` (R145) -/
  | bh (w : BhBank)
  /-- wire row `UH` (R150) -/
  | uh (w : UhBank)
  /-- wire row `MUX.form0` (R155) -/
  | muxForm0 (ieType : BitVec 6)
  /-- wire row `MUX.form1` (R155) -/
  | muxForm1 (ieType : BitVec 6) (length : BitVec 8)
  /-- wire row `MUX.form2` (R155) -/
  | muxForm2 (ieType : BitVec 6) (length : BitVec 16)
  /-- wire row `MUX.form3` (R155): 1-bit length, 5-bit type -/
  | muxForm3 (ieType : BitVec 5) (length : BitVec 1)
  /-- wire row `NB` (R170) -/
  | nb (w : NbBank)
  /-- wire row `CB` (R180) -/
  | cb (w : CbBank)
  /-- wire row `AREQ` (R190) -/
  | areq (w : AreqBank)
  /-- wire row `ARSP.reject` (R200) -/
  | arspReject (w : ArspBank)
  /-- wire row `ARSP.accept` (R200) -/
  | arspAccept (w : ArspBank)
  /-- wire row `RAR` (R210) -/
  | rar (w : RarBank)
  /-- wire row `RDC` (R220) -/
  | rdc (w : RdcBank)
  /-- wire row `ACI` (R225) -/
  | aci (w : AciBank)
deriving DecidableEq, Repr

end Sys2Proof
end

