-- ==== Sys2Proof/Machine/Fields.lean ====
section
/-! DEFINITION. The field registers: widths (10_state.md R21 to R31), selectors (30_encoding.md R85 to R87), reading and
writing one register (R32), the range rule of `SET` (40_codec_common.md R113). -/

namespace Sys2Proof

/-- The value of one element of an array field of three. -/
def Triple.get {α : Type} (t : Triple α) : Idx3 → α
  | .i0 => t.e0
  | .i1 => t.e1
  | .i2 => t.e2

/-- Write one element of an array field of three. -/
def Triple.set {α : Type} (t : Triple α) (v : α) : Idx3 → Triple α
  | .i0 => { t with e0 := v }
  | .i1 => { t with e1 := v }
  | .i2 => { t with e2 := v }

/-- The elements of an array field of three, in index order. -/
def Triple.toList {α : Type} (t : Triple α) : List α := [t.e0, t.e1, t.e2]

/-- The value of one element of an array field of six. -/
def Six.get {α : Type} (t : Six α) : Idx6 → α
  | .i0 => t.e0
  | .i1 => t.e1
  | .i2 => t.e2
  | .i3 => t.e3
  | .i4 => t.e4
  | .i5 => t.e5

/-- Write one element of an array field of six. -/
def Six.set {α : Type} (t : Six α) (v : α) : Idx6 → Six α
  | .i0 => { t with e0 := v }
  | .i1 => { t with e1 := v }
  | .i2 => { t with e2 := v }
  | .i3 => { t with e3 := v }
  | .i4 => { t with e4 := v }
  | .i5 => { t with e5 := v }

/-- The elements of an array field of six, in index order. -/
def Six.toList {α : Type} (t : Six α) : List α := [t.e0, t.e1, t.e2, t.e3, t.e4, t.e5]

/-- The number of an index (R87). -/
def Idx3.index : Idx3 → Nat
  | .i0 => 0
  | .i1 => 1
  | .i2 => 2

/-- The index of a number, if it is legal (R87). -/
def Idx3.ofIndex : Nat → Option Idx3
  | 0 => some .i0
  | 1 => some .i1
  | 2 => some .i2
  | _ => none

/-- The number of an index (R87). -/
def Idx6.index : Idx6 → Nat
  | .i0 => 0
  | .i1 => 1
  | .i2 => 2
  | .i3 => 3
  | .i4 => 4
  | .i5 => 5

/-- The index of a number, if it is legal (R87). -/
def Idx6.ofIndex : Nat → Option Idx6
  | 0 => some .i0
  | 1 => some .i1
  | 2 => some .i2
  | 3 => some .i3
  | 4 => some .i4
  | 5 => some .i5
  | _ => none

/-- A scalar field has index 0 only (R87). -/
def scalarAt {α : Type} (f : α) (idx : Nat) : Option α := if idx = 0 then some f else none

/-- Bank selector (R85). -/
def Bank.sel : Bank → Nat
  | .mht => 0
  | .bh => 1
  | .uh => 2
  | .mux => 3
  | .nb => 4
  | .cb => 5
  | .areq => 6
  | .arsp => 7
  | .rar => 8
  | .rdc => 9
  | .aci => 10

/-- The bank of a selector; 11 and above name none (R85). -/
def Bank.ofSel : Nat → Option Bank
  | 0 => some .mht
  | 1 => some .bh
  | 2 => some .uh
  | 3 => some .mux
  | 4 => some .nb
  | 5 => some .cb
  | 6 => some .areq
  | 7 => some .arsp
  | 8 => some .rar
  | 9 => some .rdc
  | 10 => some .aci
  | _ => none

/-- The number of fields of a bank (R86). -/
def Bank.fieldCount : Bank → Nat
  | .mht => 3
  | .bh => 2
  | .uh => 4
  | .mux => 3
  | .nb => 11
  | .cb => 15
  | .areq => 15
  | .arsp => 13
  | .rar => 18
  | .rdc => 17
  | .aci => 3

/-- Register widths of bank `MHT` (R21). -/
def MhtField.width : MhtField → Nat
  | .version => 2
  | .security => 2
  | .headerType => 4

/-- Field selector and index of a register of bank `MHT` (R21, R87). -/
def MhtField.sel : MhtField → Nat × Nat
  | .version => (0, 0)
  | .security => (1, 0)
  | .headerType => (2, 0)

/-- The register of bank `MHT` that a field selector and an index name (R21, R86, R87). -/
def MhtField.ofSel (field idx : Nat) : Option MhtField :=
  match field with
  | 0 => scalarAt .version idx
  | 1 => scalarAt .security idx
  | 2 => scalarAt .headerType idx
  | _ => none

/-- Read a register of bank `MHT`, zero-extended to 32 bits (R114). -/
def MhtBank.read (b : MhtBank) : MhtField → Word
  | .version => b.version.setWidth 32
  | .security => b.security.setWidth 32
  | .headerType => b.headerType.setWidth 32

/-- Write a register of bank `MHT` with the low bits of a value, which `SET` has found in range (R112, R113). -/
def MhtBank.write (b : MhtBank) (v : Word) : MhtField → MhtBank
  | .version => { b with version := v.setWidth 2 }
  | .security => { b with security := v.setWidth 2 }
  | .headerType => { b with headerType := v.setWidth 4 }

/-- Register widths of bank `BH` (R22). -/
def BhField.width : BhField → Nat
  | .networkId => 24
  | .transmitterAddress => 32

/-- Field selector and index of a register of bank `BH` (R22, R87). -/
def BhField.sel : BhField → Nat × Nat
  | .networkId => (0, 0)
  | .transmitterAddress => (1, 0)

/-- The register of bank `BH` that a field selector and an index name (R22, R86, R87). -/
def BhField.ofSel (field idx : Nat) : Option BhField :=
  match field with
  | 0 => scalarAt .networkId idx
  | 1 => scalarAt .transmitterAddress idx
  | _ => none

/-- Read a register of bank `BH`, zero-extended to 32 bits (R114). -/
def BhBank.read (b : BhBank) : BhField → Word
  | .networkId => b.networkId.setWidth 32
  | .transmitterAddress => b.transmitterAddress.setWidth 32

/-- Write a register of bank `BH` with the low bits of a value, which `SET` has found in range (R112, R113). -/
def BhBank.write (b : BhBank) (v : Word) : BhField → BhBank
  | .networkId => { b with networkId := v.setWidth 24 }
  | .transmitterAddress => { b with transmitterAddress := v.setWidth 32 }

/-- Register widths of bank `UH` (R23). -/
def UhField.width : UhField → Nat
  | .reset => 1
  | .sequenceNumber => 12
  | .receiverAddress => 32
  | .transmitterAddress => 32

/-- Field selector and index of a register of bank `UH` (R23, R87). -/
def UhField.sel : UhField → Nat × Nat
  | .reset => (0, 0)
  | .sequenceNumber => (1, 0)
  | .receiverAddress => (2, 0)
  | .transmitterAddress => (3, 0)

/-- The register of bank `UH` that a field selector and an index name (R23, R86, R87). -/
def UhField.ofSel (field idx : Nat) : Option UhField :=
  match field with
  | 0 => scalarAt .reset idx
  | 1 => scalarAt .sequenceNumber idx
  | 2 => scalarAt .receiverAddress idx
  | 3 => scalarAt .transmitterAddress idx
  | _ => none

/-- Read a register of bank `UH`, zero-extended to 32 bits (R114). -/
def UhBank.read (b : UhBank) : UhField → Word
  | .reset => b.reset.setWidth 32
  | .sequenceNumber => b.sequenceNumber.setWidth 32
  | .receiverAddress => b.receiverAddress.setWidth 32
  | .transmitterAddress => b.transmitterAddress.setWidth 32

/-- Write a register of bank `UH` with the low bits of a value, which `SET` has found in range (R112, R113). -/
def UhBank.write (b : UhBank) (v : Word) : UhField → UhBank
  | .reset => { b with reset := v.setWidth 1 }
  | .sequenceNumber => { b with sequenceNumber := v.setWidth 12 }
  | .receiverAddress => { b with receiverAddress := v.setWidth 32 }
  | .transmitterAddress => { b with transmitterAddress := v.setWidth 32 }

/-- Register widths of bank `MUX` (R24). -/
def MuxField.width : MuxField → Nat
  | .macExt => 2
  | .ieType => 6
  | .length => 16

/-- Field selector and index of a register of bank `MUX` (R24, R87). -/
def MuxField.sel : MuxField → Nat × Nat
  | .macExt => (0, 0)
  | .ieType => (1, 0)
  | .length => (2, 0)

/-- The register of bank `MUX` that a field selector and an index name (R24, R86, R87). -/
def MuxField.ofSel (field idx : Nat) : Option MuxField :=
  match field with
  | 0 => scalarAt .macExt idx
  | 1 => scalarAt .ieType idx
  | 2 => scalarAt .length idx
  | _ => none

/-- Read a register of bank `MUX`, zero-extended to 32 bits (R114). -/
def MuxBank.read (b : MuxBank) : MuxField → Word
  | .macExt => b.macExt.setWidth 32
  | .ieType => b.ieType.setWidth 32
  | .length => b.length.setWidth 32

/-- Write a register of bank `MUX` with the low bits of a value, which `SET` has found in range (R112, R113). -/
def MuxBank.write (b : MuxBank) (v : Word) : MuxField → MuxBank
  | .macExt => { b with macExt := v.setWidth 2 }
  | .ieType => { b with ieType := v.setWidth 6 }
  | .length => { b with length := v.setWidth 16 }

/-- Register widths of bank `NB` (R25). -/
def NbField.width : NbField → Nat
  | .txPowerFlag => 1
  | .powerConst => 1
  | .currentFlag => 1
  | .nbChannels => 2
  | .nbPeriod => 4
  | .cbPeriod => 4
  | .nextClusterChannel => 13
  | .timeToNext => 32
  | .clustersMaxTxPower => 4
  | .currentClusterChannel => 13
  | .additionalChannel _ => 13

/-- Field selector and index of a register of bank `NB` (R25, R87). -/
def NbField.sel : NbField → Nat × Nat
  | .txPowerFlag => (0, 0)
  | .powerConst => (1, 0)
  | .currentFlag => (2, 0)
  | .nbChannels => (3, 0)
  | .nbPeriod => (4, 0)
  | .cbPeriod => (5, 0)
  | .nextClusterChannel => (6, 0)
  | .timeToNext => (7, 0)
  | .clustersMaxTxPower => (8, 0)
  | .currentClusterChannel => (9, 0)
  | .additionalChannel i => (10, i.index)

/-- The register of bank `NB` that a field selector and an index name (R25, R86, R87). -/
def NbField.ofSel (field idx : Nat) : Option NbField :=
  match field with
  | 0 => scalarAt .txPowerFlag idx
  | 1 => scalarAt .powerConst idx
  | 2 => scalarAt .currentFlag idx
  | 3 => scalarAt .nbChannels idx
  | 4 => scalarAt .nbPeriod idx
  | 5 => scalarAt .cbPeriod idx
  | 6 => scalarAt .nextClusterChannel idx
  | 7 => scalarAt .timeToNext idx
  | 8 => scalarAt .clustersMaxTxPower idx
  | 9 => scalarAt .currentClusterChannel idx
  | 10 => (Idx3.ofIndex idx).map .additionalChannel
  | _ => none

/-- Read a register of bank `NB`, zero-extended to 32 bits (R114). -/
def NbBank.read (b : NbBank) : NbField → Word
  | .txPowerFlag => b.txPowerFlag.setWidth 32
  | .powerConst => b.powerConst.setWidth 32
  | .currentFlag => b.currentFlag.setWidth 32
  | .nbChannels => b.nbChannels.setWidth 32
  | .nbPeriod => b.nbPeriod.setWidth 32
  | .cbPeriod => b.cbPeriod.setWidth 32
  | .nextClusterChannel => b.nextClusterChannel.setWidth 32
  | .timeToNext => b.timeToNext.setWidth 32
  | .clustersMaxTxPower => b.clustersMaxTxPower.setWidth 32
  | .currentClusterChannel => b.currentClusterChannel.setWidth 32
  | .additionalChannel i => (b.additionalChannel.get i).setWidth 32

/-- Write a register of bank `NB` with the low bits of a value, which `SET` has found in range (R112, R113). -/
def NbBank.write (b : NbBank) (v : Word) : NbField → NbBank
  | .txPowerFlag => { b with txPowerFlag := v.setWidth 1 }
  | .powerConst => { b with powerConst := v.setWidth 1 }
  | .currentFlag => { b with currentFlag := v.setWidth 1 }
  | .nbChannels => { b with nbChannels := v.setWidth 2 }
  | .nbPeriod => { b with nbPeriod := v.setWidth 4 }
  | .cbPeriod => { b with cbPeriod := v.setWidth 4 }
  | .nextClusterChannel => { b with nextClusterChannel := v.setWidth 13 }
  | .timeToNext => { b with timeToNext := v.setWidth 32 }
  | .clustersMaxTxPower => { b with clustersMaxTxPower := v.setWidth 4 }
  | .currentClusterChannel => { b with currentClusterChannel := v.setWidth 13 }
  | .additionalChannel i => { b with additionalChannel := b.additionalChannel.set (v.setWidth 13) i }

/-- Register widths of bank `CB` (R26). -/
def CbField.width : CbField → Nat
  | .sfn => 8
  | .txPowerFlag => 1
  | .powerConst => 1
  | .foFlag => 1
  | .nextChannelFlag => 1
  | .timeToNextFlag => 1
  | .nbPeriod => 4
  | .cbPeriod => 4
  | .countToTrigger => 4
  | .relQuality => 2
  | .minQuality => 2
  | .clustersMaxTxPower => 4
  | .frameOffset => 8
  | .nextClusterChannel => 13
  | .timeToNext => 32

/-- Field selector and index of a register of bank `CB` (R26, R87). -/
def CbField.sel : CbField → Nat × Nat
  | .sfn => (0, 0)
  | .txPowerFlag => (1, 0)
  | .powerConst => (2, 0)
  | .foFlag => (3, 0)
  | .nextChannelFlag => (4, 0)
  | .timeToNextFlag => (5, 0)
  | .nbPeriod => (6, 0)
  | .cbPeriod => (7, 0)
  | .countToTrigger => (8, 0)
  | .relQuality => (9, 0)
  | .minQuality => (10, 0)
  | .clustersMaxTxPower => (11, 0)
  | .frameOffset => (12, 0)
  | .nextClusterChannel => (13, 0)
  | .timeToNext => (14, 0)

/-- The register of bank `CB` that a field selector and an index name (R26, R86, R87). -/
def CbField.ofSel (field idx : Nat) : Option CbField :=
  match field with
  | 0 => scalarAt .sfn idx
  | 1 => scalarAt .txPowerFlag idx
  | 2 => scalarAt .powerConst idx
  | 3 => scalarAt .foFlag idx
  | 4 => scalarAt .nextChannelFlag idx
  | 5 => scalarAt .timeToNextFlag idx
  | 6 => scalarAt .nbPeriod idx
  | 7 => scalarAt .cbPeriod idx
  | 8 => scalarAt .countToTrigger idx
  | 9 => scalarAt .relQuality idx
  | 10 => scalarAt .minQuality idx
  | 11 => scalarAt .clustersMaxTxPower idx
  | 12 => scalarAt .frameOffset idx
  | 13 => scalarAt .nextClusterChannel idx
  | 14 => scalarAt .timeToNext idx
  | _ => none

/-- Read a register of bank `CB`, zero-extended to 32 bits (R114). -/
def CbBank.read (b : CbBank) : CbField → Word
  | .sfn => b.sfn.setWidth 32
  | .txPowerFlag => b.txPowerFlag.setWidth 32
  | .powerConst => b.powerConst.setWidth 32
  | .foFlag => b.foFlag.setWidth 32
  | .nextChannelFlag => b.nextChannelFlag.setWidth 32
  | .timeToNextFlag => b.timeToNextFlag.setWidth 32
  | .nbPeriod => b.nbPeriod.setWidth 32
  | .cbPeriod => b.cbPeriod.setWidth 32
  | .countToTrigger => b.countToTrigger.setWidth 32
  | .relQuality => b.relQuality.setWidth 32
  | .minQuality => b.minQuality.setWidth 32
  | .clustersMaxTxPower => b.clustersMaxTxPower.setWidth 32
  | .frameOffset => b.frameOffset.setWidth 32
  | .nextClusterChannel => b.nextClusterChannel.setWidth 32
  | .timeToNext => b.timeToNext.setWidth 32

/-- Write a register of bank `CB` with the low bits of a value, which `SET` has found in range (R112, R113). -/
def CbBank.write (b : CbBank) (v : Word) : CbField → CbBank
  | .sfn => { b with sfn := v.setWidth 8 }
  | .txPowerFlag => { b with txPowerFlag := v.setWidth 1 }
  | .powerConst => { b with powerConst := v.setWidth 1 }
  | .foFlag => { b with foFlag := v.setWidth 1 }
  | .nextChannelFlag => { b with nextChannelFlag := v.setWidth 1 }
  | .timeToNextFlag => { b with timeToNextFlag := v.setWidth 1 }
  | .nbPeriod => { b with nbPeriod := v.setWidth 4 }
  | .cbPeriod => { b with cbPeriod := v.setWidth 4 }
  | .countToTrigger => { b with countToTrigger := v.setWidth 4 }
  | .relQuality => { b with relQuality := v.setWidth 2 }
  | .minQuality => { b with minQuality := v.setWidth 2 }
  | .clustersMaxTxPower => { b with clustersMaxTxPower := v.setWidth 4 }
  | .frameOffset => { b with frameOffset := v.setWidth 8 }
  | .nextClusterChannel => { b with nextClusterChannel := v.setWidth 13 }
  | .timeToNext => { b with timeToNext := v.setWidth 32 }

/-- Register widths of bank `AREQ` (R27). -/
def AreqField.width : AreqField → Nat
  | .setupCause => 3
  | .numberOfFlows => 3
  | .powerConst => 1
  | .ftMode => 1
  | .currentFlag => 1
  | .harqProcessesTx => 3
  | .maxHarqReTx => 5
  | .harqProcessesRx => 3
  | .maxHarqReRx => 5
  | .flowId _ => 6
  | .nbPeriod => 4
  | .cbPeriod => 4
  | .nextClusterChannel => 13
  | .timeToNext => 32
  | .currentClusterChannel => 13

/-- Field selector and index of a register of bank `AREQ` (R27, R87). -/
def AreqField.sel : AreqField → Nat × Nat
  | .setupCause => (0, 0)
  | .numberOfFlows => (1, 0)
  | .powerConst => (2, 0)
  | .ftMode => (3, 0)
  | .currentFlag => (4, 0)
  | .harqProcessesTx => (5, 0)
  | .maxHarqReTx => (6, 0)
  | .harqProcessesRx => (7, 0)
  | .maxHarqReRx => (8, 0)
  | .flowId i => (9, i.index)
  | .nbPeriod => (10, 0)
  | .cbPeriod => (11, 0)
  | .nextClusterChannel => (12, 0)
  | .timeToNext => (13, 0)
  | .currentClusterChannel => (14, 0)

/-- The register of bank `AREQ` that a field selector and an index name (R27, R86, R87). -/
def AreqField.ofSel (field idx : Nat) : Option AreqField :=
  match field with
  | 0 => scalarAt .setupCause idx
  | 1 => scalarAt .numberOfFlows idx
  | 2 => scalarAt .powerConst idx
  | 3 => scalarAt .ftMode idx
  | 4 => scalarAt .currentFlag idx
  | 5 => scalarAt .harqProcessesTx idx
  | 6 => scalarAt .maxHarqReTx idx
  | 7 => scalarAt .harqProcessesRx idx
  | 8 => scalarAt .maxHarqReRx idx
  | 9 => (Idx6.ofIndex idx).map .flowId
  | 10 => scalarAt .nbPeriod idx
  | 11 => scalarAt .cbPeriod idx
  | 12 => scalarAt .nextClusterChannel idx
  | 13 => scalarAt .timeToNext idx
  | 14 => scalarAt .currentClusterChannel idx
  | _ => none

/-- Read a register of bank `AREQ`, zero-extended to 32 bits (R114). -/
def AreqBank.read (b : AreqBank) : AreqField → Word
  | .setupCause => b.setupCause.setWidth 32
  | .numberOfFlows => b.numberOfFlows.setWidth 32
  | .powerConst => b.powerConst.setWidth 32
  | .ftMode => b.ftMode.setWidth 32
  | .currentFlag => b.currentFlag.setWidth 32
  | .harqProcessesTx => b.harqProcessesTx.setWidth 32
  | .maxHarqReTx => b.maxHarqReTx.setWidth 32
  | .harqProcessesRx => b.harqProcessesRx.setWidth 32
  | .maxHarqReRx => b.maxHarqReRx.setWidth 32
  | .flowId i => (b.flowId.get i).setWidth 32
  | .nbPeriod => b.nbPeriod.setWidth 32
  | .cbPeriod => b.cbPeriod.setWidth 32
  | .nextClusterChannel => b.nextClusterChannel.setWidth 32
  | .timeToNext => b.timeToNext.setWidth 32
  | .currentClusterChannel => b.currentClusterChannel.setWidth 32

/-- Write a register of bank `AREQ` with the low bits of a value, which `SET` has found in range (R112, R113). -/
def AreqBank.write (b : AreqBank) (v : Word) : AreqField → AreqBank
  | .setupCause => { b with setupCause := v.setWidth 3 }
  | .numberOfFlows => { b with numberOfFlows := v.setWidth 3 }
  | .powerConst => { b with powerConst := v.setWidth 1 }
  | .ftMode => { b with ftMode := v.setWidth 1 }
  | .currentFlag => { b with currentFlag := v.setWidth 1 }
  | .harqProcessesTx => { b with harqProcessesTx := v.setWidth 3 }
  | .maxHarqReTx => { b with maxHarqReTx := v.setWidth 5 }
  | .harqProcessesRx => { b with harqProcessesRx := v.setWidth 3 }
  | .maxHarqReRx => { b with maxHarqReRx := v.setWidth 5 }
  | .flowId i => { b with flowId := b.flowId.set (v.setWidth 6) i }
  | .nbPeriod => { b with nbPeriod := v.setWidth 4 }
  | .cbPeriod => { b with cbPeriod := v.setWidth 4 }
  | .nextClusterChannel => { b with nextClusterChannel := v.setWidth 13 }
  | .timeToNext => { b with timeToNext := v.setWidth 32 }
  | .currentClusterChannel => { b with currentClusterChannel := v.setWidth 13 }

/-- Register widths of bank `ARSP` (R28). -/
def ArspField.width : ArspField → Nat
  | .ackNack => 1
  | .harqMod => 1
  | .numberOfFlows => 3
  | .group => 1
  | .rejectCause => 4
  | .rejectTime => 4
  | .harqProcessesRx => 3
  | .maxHarqReRx => 5
  | .harqProcessesTx => 3
  | .maxHarqReTx => 5
  | .flowId _ => 6
  | .groupId => 7
  | .resourceTag => 7

/-- Field selector and index of a register of bank `ARSP` (R28, R87). -/
def ArspField.sel : ArspField → Nat × Nat
  | .ackNack => (0, 0)
  | .harqMod => (1, 0)
  | .numberOfFlows => (2, 0)
  | .group => (3, 0)
  | .rejectCause => (4, 0)
  | .rejectTime => (5, 0)
  | .harqProcessesRx => (6, 0)
  | .maxHarqReRx => (7, 0)
  | .harqProcessesTx => (8, 0)
  | .maxHarqReTx => (9, 0)
  | .flowId i => (10, i.index)
  | .groupId => (11, 0)
  | .resourceTag => (12, 0)

/-- The register of bank `ARSP` that a field selector and an index name (R28, R86, R87). -/
def ArspField.ofSel (field idx : Nat) : Option ArspField :=
  match field with
  | 0 => scalarAt .ackNack idx
  | 1 => scalarAt .harqMod idx
  | 2 => scalarAt .numberOfFlows idx
  | 3 => scalarAt .group idx
  | 4 => scalarAt .rejectCause idx
  | 5 => scalarAt .rejectTime idx
  | 6 => scalarAt .harqProcessesRx idx
  | 7 => scalarAt .maxHarqReRx idx
  | 8 => scalarAt .harqProcessesTx idx
  | 9 => scalarAt .maxHarqReTx idx
  | 10 => (Idx6.ofIndex idx).map .flowId
  | 11 => scalarAt .groupId idx
  | 12 => scalarAt .resourceTag idx
  | _ => none

/-- Read a register of bank `ARSP`, zero-extended to 32 bits (R114). -/
def ArspBank.read (b : ArspBank) : ArspField → Word
  | .ackNack => b.ackNack.setWidth 32
  | .harqMod => b.harqMod.setWidth 32
  | .numberOfFlows => b.numberOfFlows.setWidth 32
  | .group => b.group.setWidth 32
  | .rejectCause => b.rejectCause.setWidth 32
  | .rejectTime => b.rejectTime.setWidth 32
  | .harqProcessesRx => b.harqProcessesRx.setWidth 32
  | .maxHarqReRx => b.maxHarqReRx.setWidth 32
  | .harqProcessesTx => b.harqProcessesTx.setWidth 32
  | .maxHarqReTx => b.maxHarqReTx.setWidth 32
  | .flowId i => (b.flowId.get i).setWidth 32
  | .groupId => b.groupId.setWidth 32
  | .resourceTag => b.resourceTag.setWidth 32

/-- Write a register of bank `ARSP` with the low bits of a value, which `SET` has found in range (R112, R113). -/
def ArspBank.write (b : ArspBank) (v : Word) : ArspField → ArspBank
  | .ackNack => { b with ackNack := v.setWidth 1 }
  | .harqMod => { b with harqMod := v.setWidth 1 }
  | .numberOfFlows => { b with numberOfFlows := v.setWidth 3 }
  | .group => { b with group := v.setWidth 1 }
  | .rejectCause => { b with rejectCause := v.setWidth 4 }
  | .rejectTime => { b with rejectTime := v.setWidth 4 }
  | .harqProcessesRx => { b with harqProcessesRx := v.setWidth 3 }
  | .maxHarqReRx => { b with maxHarqReRx := v.setWidth 5 }
  | .harqProcessesTx => { b with harqProcessesTx := v.setWidth 3 }
  | .maxHarqReTx => { b with maxHarqReTx := v.setWidth 5 }
  | .flowId i => { b with flowId := b.flowId.set (v.setWidth 6) i }
  | .groupId => { b with groupId := v.setWidth 7 }
  | .resourceTag => { b with resourceTag := v.setWidth 7 }

/-- Register widths of bank `RAR` (R29). -/
def RarField.width : RarField → Nat
  | .repeatMode => 2
  | .sfnFlag => 1
  | .channelFlag => 1
  | .chan2Flag => 1
  | .startSubslot => 8
  | .lengthType => 1
  | .length => 7
  | .maxLenType => 1
  | .maxRachLength => 4
  | .cwMinSig => 3
  | .dectDelay => 1
  | .responseWindow => 4
  | .cwMaxSig => 3
  | .repetition => 8
  | .validity => 8
  | .sfnOffset => 8
  | .channel => 13
  | .channel2 => 13

/-- Field selector and index of a register of bank `RAR` (R29, R87). -/
def RarField.sel : RarField → Nat × Nat
  | .repeatMode => (0, 0)
  | .sfnFlag => (1, 0)
  | .channelFlag => (2, 0)
  | .chan2Flag => (3, 0)
  | .startSubslot => (4, 0)
  | .lengthType => (5, 0)
  | .length => (6, 0)
  | .maxLenType => (7, 0)
  | .maxRachLength => (8, 0)
  | .cwMinSig => (9, 0)
  | .dectDelay => (10, 0)
  | .responseWindow => (11, 0)
  | .cwMaxSig => (12, 0)
  | .repetition => (13, 0)
  | .validity => (14, 0)
  | .sfnOffset => (15, 0)
  | .channel => (16, 0)
  | .channel2 => (17, 0)

/-- The register of bank `RAR` that a field selector and an index name (R29, R86, R87). -/
def RarField.ofSel (field idx : Nat) : Option RarField :=
  match field with
  | 0 => scalarAt .repeatMode idx
  | 1 => scalarAt .sfnFlag idx
  | 2 => scalarAt .channelFlag idx
  | 3 => scalarAt .chan2Flag idx
  | 4 => scalarAt .startSubslot idx
  | 5 => scalarAt .lengthType idx
  | 6 => scalarAt .length idx
  | 7 => scalarAt .maxLenType idx
  | 8 => scalarAt .maxRachLength idx
  | 9 => scalarAt .cwMinSig idx
  | 10 => scalarAt .dectDelay idx
  | 11 => scalarAt .responseWindow idx
  | 12 => scalarAt .cwMaxSig idx
  | 13 => scalarAt .repetition idx
  | 14 => scalarAt .validity idx
  | 15 => scalarAt .sfnOffset idx
  | 16 => scalarAt .channel idx
  | 17 => scalarAt .channel2 idx
  | _ => none

/-- Read a register of bank `RAR`, zero-extended to 32 bits (R114). -/
def RarBank.read (b : RarBank) : RarField → Word
  | .repeatMode => b.repeatMode.setWidth 32
  | .sfnFlag => b.sfnFlag.setWidth 32
  | .channelFlag => b.channelFlag.setWidth 32
  | .chan2Flag => b.chan2Flag.setWidth 32
  | .startSubslot => b.startSubslot.setWidth 32
  | .lengthType => b.lengthType.setWidth 32
  | .length => b.length.setWidth 32
  | .maxLenType => b.maxLenType.setWidth 32
  | .maxRachLength => b.maxRachLength.setWidth 32
  | .cwMinSig => b.cwMinSig.setWidth 32
  | .dectDelay => b.dectDelay.setWidth 32
  | .responseWindow => b.responseWindow.setWidth 32
  | .cwMaxSig => b.cwMaxSig.setWidth 32
  | .repetition => b.repetition.setWidth 32
  | .validity => b.validity.setWidth 32
  | .sfnOffset => b.sfnOffset.setWidth 32
  | .channel => b.channel.setWidth 32
  | .channel2 => b.channel2.setWidth 32

/-- Write a register of bank `RAR` with the low bits of a value, which `SET` has found in range (R112, R113). -/
def RarBank.write (b : RarBank) (v : Word) : RarField → RarBank
  | .repeatMode => { b with repeatMode := v.setWidth 2 }
  | .sfnFlag => { b with sfnFlag := v.setWidth 1 }
  | .channelFlag => { b with channelFlag := v.setWidth 1 }
  | .chan2Flag => { b with chan2Flag := v.setWidth 1 }
  | .startSubslot => { b with startSubslot := v.setWidth 8 }
  | .lengthType => { b with lengthType := v.setWidth 1 }
  | .length => { b with length := v.setWidth 7 }
  | .maxLenType => { b with maxLenType := v.setWidth 1 }
  | .maxRachLength => { b with maxRachLength := v.setWidth 4 }
  | .cwMinSig => { b with cwMinSig := v.setWidth 3 }
  | .dectDelay => { b with dectDelay := v.setWidth 1 }
  | .responseWindow => { b with responseWindow := v.setWidth 4 }
  | .cwMaxSig => { b with cwMaxSig := v.setWidth 3 }
  | .repetition => { b with repetition := v.setWidth 8 }
  | .validity => { b with validity := v.setWidth 8 }
  | .sfnOffset => { b with sfnOffset := v.setWidth 8 }
  | .channel => { b with channel := v.setWidth 13 }
  | .channel2 => { b with channel2 := v.setWidth 13 }

/-- Register widths of bank `RDC` (R30). -/
def RdcField.width : RdcField → Nat
  | .numPhyCap => 3
  | .release => 5
  | .groupAss => 1
  | .paging => 1
  | .operatingModes => 2
  | .mesh => 1
  | .schedul => 1
  | .macSecurity => 3
  | .dlcServiceType => 3
  | .rdPowerClass => 3
  | .maxNssRx => 2
  | .rxForTxDiversity => 2
  | .rxGain => 4
  | .maxMcs => 4
  | .softBufferSize => 4
  | .numHarqProcesses => 2
  | .harqFeedbackDelay => 4

/-- Field selector and index of a register of bank `RDC` (R30, R87). -/
def RdcField.sel : RdcField → Nat × Nat
  | .numPhyCap => (0, 0)
  | .release => (1, 0)
  | .groupAss => (2, 0)
  | .paging => (3, 0)
  | .operatingModes => (4, 0)
  | .mesh => (5, 0)
  | .schedul => (6, 0)
  | .macSecurity => (7, 0)
  | .dlcServiceType => (8, 0)
  | .rdPowerClass => (9, 0)
  | .maxNssRx => (10, 0)
  | .rxForTxDiversity => (11, 0)
  | .rxGain => (12, 0)
  | .maxMcs => (13, 0)
  | .softBufferSize => (14, 0)
  | .numHarqProcesses => (15, 0)
  | .harqFeedbackDelay => (16, 0)

/-- The register of bank `RDC` that a field selector and an index name (R30, R86, R87). -/
def RdcField.ofSel (field idx : Nat) : Option RdcField :=
  match field with
  | 0 => scalarAt .numPhyCap idx
  | 1 => scalarAt .release idx
  | 2 => scalarAt .groupAss idx
  | 3 => scalarAt .paging idx
  | 4 => scalarAt .operatingModes idx
  | 5 => scalarAt .mesh idx
  | 6 => scalarAt .schedul idx
  | 7 => scalarAt .macSecurity idx
  | 8 => scalarAt .dlcServiceType idx
  | 9 => scalarAt .rdPowerClass idx
  | 10 => scalarAt .maxNssRx idx
  | 11 => scalarAt .rxForTxDiversity idx
  | 12 => scalarAt .rxGain idx
  | 13 => scalarAt .maxMcs idx
  | 14 => scalarAt .softBufferSize idx
  | 15 => scalarAt .numHarqProcesses idx
  | 16 => scalarAt .harqFeedbackDelay idx
  | _ => none

/-- Read a register of bank `RDC`, zero-extended to 32 bits (R114). -/
def RdcBank.read (b : RdcBank) : RdcField → Word
  | .numPhyCap => b.numPhyCap.setWidth 32
  | .release => b.release.setWidth 32
  | .groupAss => b.groupAss.setWidth 32
  | .paging => b.paging.setWidth 32
  | .operatingModes => b.operatingModes.setWidth 32
  | .mesh => b.mesh.setWidth 32
  | .schedul => b.schedul.setWidth 32
  | .macSecurity => b.macSecurity.setWidth 32
  | .dlcServiceType => b.dlcServiceType.setWidth 32
  | .rdPowerClass => b.rdPowerClass.setWidth 32
  | .maxNssRx => b.maxNssRx.setWidth 32
  | .rxForTxDiversity => b.rxForTxDiversity.setWidth 32
  | .rxGain => b.rxGain.setWidth 32
  | .maxMcs => b.maxMcs.setWidth 32
  | .softBufferSize => b.softBufferSize.setWidth 32
  | .numHarqProcesses => b.numHarqProcesses.setWidth 32
  | .harqFeedbackDelay => b.harqFeedbackDelay.setWidth 32

/-- Write a register of bank `RDC` with the low bits of a value, which `SET` has found in range (R112, R113). -/
def RdcBank.write (b : RdcBank) (v : Word) : RdcField → RdcBank
  | .numPhyCap => { b with numPhyCap := v.setWidth 3 }
  | .release => { b with release := v.setWidth 5 }
  | .groupAss => { b with groupAss := v.setWidth 1 }
  | .paging => { b with paging := v.setWidth 1 }
  | .operatingModes => { b with operatingModes := v.setWidth 2 }
  | .mesh => { b with mesh := v.setWidth 1 }
  | .schedul => { b with schedul := v.setWidth 1 }
  | .macSecurity => { b with macSecurity := v.setWidth 3 }
  | .dlcServiceType => { b with dlcServiceType := v.setWidth 3 }
  | .rdPowerClass => { b with rdPowerClass := v.setWidth 3 }
  | .maxNssRx => { b with maxNssRx := v.setWidth 2 }
  | .rxForTxDiversity => { b with rxForTxDiversity := v.setWidth 2 }
  | .rxGain => { b with rxGain := v.setWidth 4 }
  | .maxMcs => { b with maxMcs := v.setWidth 4 }
  | .softBufferSize => { b with softBufferSize := v.setWidth 4 }
  | .numHarqProcesses => { b with numHarqProcesses := v.setWidth 2 }
  | .harqFeedbackDelay => { b with harqFeedbackDelay := v.setWidth 4 }

/-- Register widths of bank `ACI` (R31). -/
def AciField.width : AciField → Nat
  | .cbM => 1
  | .dlDataReception => 3
  | .ulPeriod => 4

/-- Field selector and index of a register of bank `ACI` (R31, R87). -/
def AciField.sel : AciField → Nat × Nat
  | .cbM => (0, 0)
  | .dlDataReception => (1, 0)
  | .ulPeriod => (2, 0)

/-- The register of bank `ACI` that a field selector and an index name (R31, R86, R87). -/
def AciField.ofSel (field idx : Nat) : Option AciField :=
  match field with
  | 0 => scalarAt .cbM idx
  | 1 => scalarAt .dlDataReception idx
  | 2 => scalarAt .ulPeriod idx
  | _ => none

/-- Read a register of bank `ACI`, zero-extended to 32 bits (R114). -/
def AciBank.read (b : AciBank) : AciField → Word
  | .cbM => b.cbM.setWidth 32
  | .dlDataReception => b.dlDataReception.setWidth 32
  | .ulPeriod => b.ulPeriod.setWidth 32

/-- Write a register of bank `ACI` with the low bits of a value, which `SET` has found in range (R112, R113). -/
def AciBank.write (b : AciBank) (v : Word) : AciField → AciBank
  | .cbM => { b with cbM := v.setWidth 1 }
  | .dlDataReception => { b with dlDataReception := v.setWidth 3 }
  | .ulPeriod => { b with ulPeriod := v.setWidth 4 }

/-- Width of a register (R21 to R31). -/
def Reg.width : Reg → Nat
  | .mht f => f.width
  | .bh f => f.width
  | .uh f => f.width
  | .mux f => f.width
  | .nb f => f.width
  | .cb f => f.width
  | .areq f => f.width
  | .arsp f => f.width
  | .rar f => f.width
  | .rdc f => f.width
  | .aci f => f.width

/-- The bank of a register. -/
def Reg.bank : Reg → Bank
  | .mht _ => .mht
  | .bh _ => .bh
  | .uh _ => .uh
  | .mux _ => .mux
  | .nb _ => .nb
  | .cb _ => .cb
  | .areq _ => .areq
  | .arsp _ => .arsp
  | .rar _ => .rar
  | .rdc _ => .rdc
  | .aci _ => .aci

/-- Field selector and index of a register (R86, R87). -/
def Reg.sel : Reg → Nat × Nat
  | .mht f => f.sel
  | .bh f => f.sel
  | .uh f => f.sel
  | .mux f => f.sel
  | .nb f => f.sel
  | .cb f => f.sel
  | .areq f => f.sel
  | .arsp f => f.sel
  | .rar f => f.sel
  | .rdc f => f.sel
  | .aci f => f.sel

/-- The register that a bank, a field selector and an index name (R85 to R87). -/
def Reg.ofSel (b : Bank) (field idx : Nat) : Option Reg :=
  match b with
  | .mht => (MhtField.ofSel field idx).map .mht
  | .bh => (BhField.ofSel field idx).map .bh
  | .uh => (UhField.ofSel field idx).map .uh
  | .mux => (MuxField.ofSel field idx).map .mux
  | .nb => (NbField.ofSel field idx).map .nb
  | .cb => (CbField.ofSel field idx).map .cb
  | .areq => (AreqField.ofSel field idx).map .areq
  | .arsp => (ArspField.ofSel field idx).map .arsp
  | .rar => (RarField.ofSel field idx).map .rar
  | .rdc => (RdcField.ofSel field idx).map .rdc
  | .aci => (AciField.ofSel field idx).map .aci

/-- The codes of `MHT.headerType` that have a variant: DATA, BEACON, UNICAST, RD_BROADCAST, ESCAPE (R34). -/
def headerTypeHasVariant (v : Nat) : Bool := v == 0 || v == 1 || v == 2 || v == 3 || v == 15

/-- The range rule of `SET` (R113): at most `2^w - 1`, and for `MHT.headerType` one of the five codes with a variant. -/
def Reg.legal (r : Reg) (v : Word) : Bool :=
  match r with
  | .mht .headerType => headerTypeHasVariant v.toNat
  | _ => decide (v.toNat < 2 ^ r.width)

/-- Read one field register (R32, R114). -/
def Banks.read (B : Banks) : Reg → Word
  | .mht f => B.mht.read f
  | .bh f => B.bh.read f
  | .uh f => B.uh.read f
  | .mux f => B.mux.read f
  | .nb f => B.nb.read f
  | .cb f => B.cb.read f
  | .areq f => B.areq.read f
  | .arsp f => B.arsp.read f
  | .rar f => B.rar.read f
  | .rdc f => B.rdc.read f
  | .aci f => B.aci.read f

/-- Write one field register (R32, R112). -/
def Banks.write (B : Banks) (v : Word) : Reg → Banks
  | .mht f => { B with mht := B.mht.write v f }
  | .bh f => { B with bh := B.bh.write v f }
  | .uh f => { B with uh := B.uh.write v f }
  | .mux f => { B with mux := B.mux.write v f }
  | .nb f => { B with nb := B.nb.write v f }
  | .cb f => { B with cb := B.cb.write v f }
  | .areq f => { B with areq := B.areq.write v f }
  | .arsp f => { B with arsp := B.arsp.write v f }
  | .rar f => { B with rar := B.rar.write v f }
  | .rdc f => { B with rdc := B.rdc.write v f }
  | .aci f => { B with aci := B.aci.write v f }

/-- Every register of one bank to 0 (R40, R111). -/
def Banks.clear (B : Banks) : Bank → Banks
  | .mht => { B with mht := {} }
  | .bh => { B with bh := {} }
  | .uh => { B with uh := {} }
  | .mux => { B with mux := {} }
  | .nb => { B with nb := {} }
  | .cb => { B with cb := {} }
  | .areq => { B with areq := {} }
  | .arsp => { B with arsp := {} }
  | .rar => { B with rar := {} }
  | .rdc => { B with rdc := {} }
  | .aci => { B with aci := {} }

end Sys2Proof
end

