-- ==== Sys2Proof/Machine/Gates.lean ====
section
/-! DEFINITION. The presence flags (10_state.md R33): which optional fields of a structure are on the wire, the size of each
structure as a function of its flags (30_encoding.md R90 and the size rules of files 41 to 44), and the part of a bank that
its wire form carries (`vis_B` of 40_codec_common.md R130). -/

namespace Sys2Proof

/-- The number of flow identifiers carried (43_association_messages.md R191). -/
def flows (n : BitVec 3) : Nat := if n.toNat ≤ 6 then n.toNat else 0

/-- `v` if the gate is open, 0 if it is closed. -/
def gated {w : Nat} (isOpen : Bool) (v : BitVec w) : BitVec w := if isOpen then v else 0#w

/-- The first `n` elements, the others 0. -/
def Triple.keep {w : Nat} (t : Triple (BitVec w)) (n : Nat) : Triple (BitVec w) :=
  ⟨gated (0 < n) t.e0, gated (1 < n) t.e1, gated (2 < n) t.e2⟩

/-- The first `n` elements, the others 0. -/
def Six.keep {w : Nat} (t : Six (BitVec w)) (n : Nat) : Six (BitVec w) :=
  ⟨gated (0 < n) t.e0, gated (1 < n) t.e1, gated (2 < n) t.e2, gated (3 < n) t.e3, gated (4 < n) t.e4, gated (5 < n) t.e5⟩

/-- Size of a multiplexing header (41_mac_headers.md R157). -/
def MuxBank.size (b : MuxBank) : Nat :=
  if b.macExt = 1#2 then 2 else if b.macExt = 2#2 then 3 else 1

/-- Size of a Network Beacon message (42_beacon_messages.md R171). -/
def NbBank.size (b : NbBank) : Nat := 8 + b.txPowerFlag.toNat + 2 * b.currentFlag.toNat + 2 * b.nbChannels.toNat

/-- Size of a Cluster Beacon message (R181). -/
def CbBank.size (b : CbBank) : Nat :=
  4 + b.txPowerFlag.toNat + b.foFlag.toNat + 2 * b.nextChannelFlag.toNat + 4 * b.timeToNextFlag.toNat

/-- Size of an Association Request message (R192). -/
def AreqBank.size (b : AreqBank) : Nat :=
  4 + flows b.numberOfFlows + b.ftMode.toNat * (7 + 2 * b.currentFlag.toNat)

/-- Size of an Association Response message (R201). -/
def ArspBank.size (b : ArspBank) : Nat :=
  if b.ackNack = 0#1 then 2 else 1 + 2 * b.harqMod.toNat + flows b.numberOfFlows + 2 * b.group.toNat

/-- Size of a Random Access Resource IE (44_information_elements.md R211). -/
def RarBank.size (b : RarBank) : Nat :=
  5 + 2 * (if b.repeatMode ≠ 0#2 then 1 else 0) + b.sfnFlag.toNat + 2 * b.channelFlag.toNat + 2 * b.chan2Flag.toNat

/-- `size_B` of a bank (40_codec_common.md R115; fixed sizes R141, R146, R151, R221, R226). -/
def Banks.size (B : Banks) : Bank → Nat
  | .mht => 1
  | .bh => 7
  | .uh => 10
  | .mux => B.mux.size
  | .nb => B.nb.size
  | .cb => B.cb.size
  | .areq => B.areq.size
  | .arsp => B.arsp.size
  | .rar => B.rar.size
  | .rdc => 7
  | .aci => 1

/-- Length of the mandatory part that holds every flag (R90). -/
def Bank.prefixBytes : Bank → Nat
  | .mht => 1
  | .bh => 7
  | .uh => 10
  | .mux => 1
  | .nb => 8
  | .cb => 4
  | .areq => 4
  | .arsp => 1
  | .rar => 5
  | .rdc => 7
  | .aci => 1

/-- What the wire carries of a multiplexing header: form 0 carries no length (R33, R155). -/
def MuxBank.visible (b : MuxBank) : MuxBank := { b with length := gated (b.macExt ≠ 0#2) b.length }

/-- What the wire carries of a Network Beacon message (R33). -/
def NbBank.visible (b : NbBank) : NbBank :=
  { b with
    clustersMaxTxPower := gated (b.txPowerFlag = 1#1) b.clustersMaxTxPower
    currentClusterChannel := gated (b.currentFlag = 1#1) b.currentClusterChannel
    additionalChannel := b.additionalChannel.keep b.nbChannels.toNat }

/-- What the wire carries of a Cluster Beacon message (R33). -/
def CbBank.visible (b : CbBank) : CbBank :=
  { b with
    clustersMaxTxPower := gated (b.txPowerFlag = 1#1) b.clustersMaxTxPower
    frameOffset := gated (b.foFlag = 1#1) b.frameOffset
    nextClusterChannel := gated (b.nextChannelFlag = 1#1) b.nextClusterChannel
    timeToNext := gated (b.timeToNextFlag = 1#1) b.timeToNext }

/-- What the wire carries of an Association Request message (R33). -/
def AreqBank.visible (b : AreqBank) : AreqBank :=
  { b with
    flowId := b.flowId.keep (flows b.numberOfFlows)
    nbPeriod := gated (b.ftMode = 1#1) b.nbPeriod
    cbPeriod := gated (b.ftMode = 1#1) b.cbPeriod
    nextClusterChannel := gated (b.ftMode = 1#1) b.nextClusterChannel
    timeToNext := gated (b.ftMode = 1#1) b.timeToNext
    currentClusterChannel := gated (b.ftMode = 1#1 ∧ b.currentFlag = 1#1) b.currentClusterChannel }

/-- What the wire carries of an Association Response message (R33). -/
def ArspBank.visible (b : ArspBank) : ArspBank :=
  { b with
    rejectCause := gated (b.ackNack = 0#1) b.rejectCause
    rejectTime := gated (b.ackNack = 0#1) b.rejectTime
    harqProcessesRx := gated (b.ackNack = 1#1 ∧ b.harqMod = 1#1) b.harqProcessesRx
    maxHarqReRx := gated (b.ackNack = 1#1 ∧ b.harqMod = 1#1) b.maxHarqReRx
    harqProcessesTx := gated (b.ackNack = 1#1 ∧ b.harqMod = 1#1) b.harqProcessesTx
    maxHarqReTx := gated (b.ackNack = 1#1 ∧ b.harqMod = 1#1) b.maxHarqReTx
    flowId := b.flowId.keep (if b.ackNack = 1#1 then flows b.numberOfFlows else 0)
    groupId := gated (b.ackNack = 1#1 ∧ b.group = 1#1) b.groupId
    resourceTag := gated (b.ackNack = 1#1 ∧ b.group = 1#1) b.resourceTag }

/-- What the wire carries of a Random Access Resource IE (R33). -/
def RarBank.visible (b : RarBank) : RarBank :=
  { b with
    repetition := gated (b.repeatMode ≠ 0#2) b.repetition
    validity := gated (b.repeatMode ≠ 0#2) b.validity
    sfnOffset := gated (b.sfnFlag = 1#1) b.sfnOffset
    channel := gated (b.channelFlag = 1#1) b.channel
    channel2 := gated (b.chan2Flag = 1#1) b.channel2 }

/-- `vis_B` (R130): one bank as its wire form carries it; the banks without an optional field are carried whole. -/
def Banks.visible (B : Banks) : Bank → Banks
  | .mht => B
  | .bh => B
  | .uh => B
  | .mux => { B with mux := B.mux.visible }
  | .nb => { B with nb := B.nb.visible }
  | .cb => { B with cb := B.cb.visible }
  | .areq => { B with areq := B.areq.visible }
  | .arsp => { B with arsp := B.arsp.visible }
  | .rar => { B with rar := B.rar.visible }
  | .rdc => B
  | .aci => B

/-- `mux_fits` (R156): the length and the type fit the header form. -/
def MuxBank.fits (b : MuxBank) : Bool :=
  if b.macExt = 1#2 then b.length.toNat ≤ 255
  else if b.macExt = 3#2 then b.ieType.toNat ≤ 31 ∧ b.length.toNat ≤ 1
  else true

end Sys2Proof
end

