-- ==== Sys2Proof/WellFormed.lean ====
section
/-! DEFINITION. Which instructions an encoding can name: `DISP` names `MHT` or `MUX` only (30_encoding.md R89), and a wire
structure holds nothing in a field that its flags keep off the wire (40_codec_common.md R120). Every other operand is in
range by its type. -/

namespace Sys2Proof

/-- The instructions an encoding can name. -/
def Instr.wellFormed : Instr → Bool
  | .disp b => b = .mht ∨ b = .mux
  | .nb w => w.visible = w
  | .cb w => w.visible = w
  | .areq w => w.visible = w
  | .arspReject w => w.ackNack = 0#1 ∧ w.visible = w
  | .arspAccept w => w.ackNack = 1#1 ∧ w.visible = w
  | .rar w => w.visible = w
  | .nop | .rst _ | .set _ _ | .get _ | .size _ | .ser _ | .des _ | .seek _ | .tell | .bufwr _ _ | .bufrd _ => true
  | .chinit _ _ | .chvalid _ | .bandparm _ _ | .cfreq _ _ | .chfreq _ | .chid _ | .bin _ _ => true
  | .ssget _ _ _ _ _ | .ssset _ _ _ _ _ _ | .tloc _ _ _ | .pwadd _ _ _ | .pwsub _ _ _ | .rssi _ _ | .w2dbm _ => true
  | .stclr | .stget | .mht _ | .bh _ | .uh _ | .muxForm0 _ | .muxForm1 _ _ | .muxForm2 _ _ | .muxForm3 _ _ => true
  | .rdc _ | .aci _ => true

end Sys2Proof
end

