-- ==== Sys2Proof/Decode.lean ====
section
/-! DEFINITION. The two layers of encoding (30_encoding.md R80). The wire formats: `enc_B` and `dec_B` of every structure
(files 41 to 44). The command record (R81, R82): its decoder, total on any bytes, which rejects by name (R89), and its
encoder. Last, the reading of one row of spec/opcode_table.json (`decodeTableWord`). -/

namespace Sys2Proof

/-! ### Bytes (40_codec_common.md R132) -/

/-- Byte `i` of a byte list; a list is only read where it is long enough. -/
def byteAt (bytes : List Byte) (i : Nat) : Byte := bytes.getD i 0#8

/-- A 13-bit channel number in two bytes under three reserved bits (R92, R132). -/
def put13 (c : BitVec 13) : List Byte := [0#3 ++ c.extractLsb' 8 5, c.extractLsb' 0 8]

/-- A 24-bit field, most significant byte first (R132). -/
def put24 (v : BitVec 24) : List Byte := [v.extractLsb' 16 8, v.extractLsb' 8 8, v.extractLsb' 0 8]

/-- A 32-bit field, most significant byte first (R132). -/
def put32 (v : Word) : List Byte :=
  [v.extractLsb' 24 8, v.extractLsb' 16 8, v.extractLsb' 8 8, v.extractLsb' 0 8]

/-- The 13-bit channel number at index `i`; the three reserved bits are ignored (R92, R132). -/
def get13 (bytes : List Byte) (i : Nat) : BitVec 13 := (byteAt bytes i).extractLsb' 0 5 ++ byteAt bytes (i + 1)

/-- The 24-bit field at index `i` (R132). -/
def get24 (bytes : List Byte) (i : Nat) : BitVec 24 := byteAt bytes i ++ byteAt bytes (i + 1) ++ byteAt bytes (i + 2)

/-- The 32-bit field at index `i` (R132). -/
def get32 (bytes : List Byte) (i : Nat) : Word :=
  byteAt bytes i ++ byteAt bytes (i + 1) ++ byteAt bytes (i + 2) ++ byteAt bytes (i + 3)

/-- An optional piece of a structure: on the wire if its gate is open. -/
def optBytes (isOpen : Bool) (bytes : List Byte) : List Byte := if isOpen then bytes else []

/-! ### Wire formats: `enc_B`. A byte is written as the concatenation of its fields, bit 7 first (00_scope.md R10). -/

/-- `enc_MHT` (R140, R142). -/
def encMht (b : MhtBank) : List Byte := [b.version ++ b.security ++ b.headerType]

/-- `enc_BH` (R145, R147). -/
def encBh (b : BhBank) : List Byte := put24 b.networkId ++ put32 b.transmitterAddress

/-- `enc_UH` (R150, R152). -/
def encUh (b : UhBank) : List Byte :=
  [0#3 ++ b.reset ++ b.sequenceNumber.extractLsb' 8 4, b.sequenceNumber.extractLsb' 0 8]
    ++ put32 b.receiverAddress ++ put32 b.transmitterAddress

/-- `enc_MUX` (R155, R158). -/
def encMux (b : MuxBank) : List Byte :=
  if b.macExt = 0#2 then [0#2 ++ b.ieType]
  else if b.macExt = 1#2 then [1#2 ++ b.ieType, b.length.extractLsb' 0 8]
  else if b.macExt = 2#2 then [2#2 ++ b.ieType, b.length.extractLsb' 8 8, b.length.extractLsb' 0 8]
  else [3#2 ++ b.length.extractLsb' 0 1 ++ b.ieType.extractLsb' 0 5]

/-- `enc_NB` (R170, R172). -/
def encNb (b : NbBank) : List Byte :=
  [0#3 ++ b.txPowerFlag ++ b.powerConst ++ b.currentFlag ++ b.nbChannels, b.nbPeriod ++ b.cbPeriod]
    ++ put13 b.nextClusterChannel ++ put32 b.timeToNext
    ++ optBytes (b.txPowerFlag = 1#1) [0#4 ++ b.clustersMaxTxPower]
    ++ optBytes (b.currentFlag = 1#1) (put13 b.currentClusterChannel)
    ++ ((b.additionalChannel.toList.take b.nbChannels.toNat).map put13).flatten

/-- `enc_CB` (R180, R182). -/
def encCb (b : CbBank) : List Byte :=
  [b.sfn, 0#3 ++ b.txPowerFlag ++ b.powerConst ++ b.foFlag ++ b.nextChannelFlag ++ b.timeToNextFlag,
    b.nbPeriod ++ b.cbPeriod, b.countToTrigger ++ b.relQuality ++ b.minQuality]
    ++ optBytes (b.txPowerFlag = 1#1) [0#4 ++ b.clustersMaxTxPower]
    ++ optBytes (b.foFlag = 1#1) [b.frameOffset]
    ++ optBytes (b.nextChannelFlag = 1#1) (put13 b.nextClusterChannel)
    ++ optBytes (b.timeToNextFlag = 1#1) (put32 b.timeToNext)

/-- A flow identifier in one byte under two reserved bits (R190, R200). -/
def putFlow (f : BitVec 6) : Byte := 0#2 ++ f

/-- `enc_AREQ` (R190, R193). -/
def encAreq (b : AreqBank) : List Byte :=
  [b.setupCause ++ b.numberOfFlows ++ b.powerConst ++ b.ftMode, b.currentFlag ++ 0#7,
    b.harqProcessesTx ++ b.maxHarqReTx, b.harqProcessesRx ++ b.maxHarqReRx]
    ++ (b.flowId.toList.take (flows b.numberOfFlows)).map putFlow
    ++ optBytes (b.ftMode = 1#1)
        ([b.nbPeriod ++ b.cbPeriod] ++ put13 b.nextClusterChannel ++ put32 b.timeToNext
          ++ optBytes (b.currentFlag = 1#1) (put13 b.currentClusterChannel))

/-- `enc_ARSP` (R200, R202). -/
def encArsp (b : ArspBank) : List Byte :=
  [b.ackNack ++ 0#1 ++ b.harqMod ++ b.numberOfFlows ++ b.group ++ 0#1]
    ++ if b.ackNack = 0#1 then [b.rejectCause ++ b.rejectTime]
       else optBytes (b.harqMod = 1#1) [b.harqProcessesRx ++ b.maxHarqReRx, b.harqProcessesTx ++ b.maxHarqReTx]
         ++ (b.flowId.toList.take (flows b.numberOfFlows)).map putFlow
         ++ optBytes (b.group = 1#1) [0#1 ++ b.groupId, 0#1 ++ b.resourceTag]

/-- `enc_RAR` (R210, R212). -/
def encRar (b : RarBank) : List Byte :=
  [0#3 ++ b.repeatMode ++ b.sfnFlag ++ b.channelFlag ++ b.chan2Flag, b.startSubslot, b.lengthType ++ b.length,
    b.maxLenType ++ b.maxRachLength ++ b.cwMinSig, b.dectDelay ++ b.responseWindow ++ b.cwMaxSig]
    ++ optBytes (b.repeatMode ≠ 0#2) [b.repetition, b.validity]
    ++ optBytes (b.sfnFlag = 1#1) [b.sfnOffset]
    ++ optBytes (b.channelFlag = 1#1) (put13 b.channel)
    ++ optBytes (b.chan2Flag = 1#1) (put13 b.channel2)

/-- `enc_RDC` (R220, R223). -/
def encRdc (b : RdcBank) : List Byte :=
  [b.numPhyCap ++ b.release, 0#2 ++ b.groupAss ++ b.paging ++ b.operatingModes ++ b.mesh ++ b.schedul,
    b.macSecurity ++ b.dlcServiceType ++ 0#2, 0#1 ++ b.rdPowerClass ++ b.maxNssRx ++ b.rxForTxDiversity,
    b.rxGain ++ b.maxMcs, b.softBufferSize ++ b.numHarqProcesses ++ 0#2, 0#4 ++ b.harqFeedbackDelay]

/-- `enc_ACI` (R225, R227). -/
def encAci (b : AciBank) : List Byte := [b.cbM ++ b.dlDataReception ++ b.ulPeriod]

/-- `enc_B` of a bank (40_codec_common.md R116). -/
def Banks.enc (B : Banks) : Bank → List Byte
  | .mht => encMht B.mht
  | .bh => encBh B.bh
  | .uh => encUh B.uh
  | .mux => encMux B.mux
  | .nb => encNb B.nb
  | .cb => encCb B.cb
  | .areq => encAreq B.areq
  | .arsp => encArsp B.arsp
  | .rar => encRar B.rar
  | .rdc => encRdc B.rdc
  | .aci => encAci B.aci

/-! ### Wire formats: `dec_B`. Each starts from the cleared bank (R120) and ignores reserved bits (R91). -/

/-- `dec_MHT` (R143). -/
def decMht (bytes : List Byte) : MhtBank :=
  let b0 := byteAt bytes 0
  { version := b0.extractLsb' 6 2, security := b0.extractLsb' 4 2, headerType := b0.extractLsb' 0 4 }

/-- `dec_BH` (R148). -/
def decBh (bytes : List Byte) : BhBank := { networkId := get24 bytes 0, transmitterAddress := get32 bytes 3 }

/-- `dec_UH` (R153). -/
def decUh (bytes : List Byte) : UhBank :=
  { reset := (byteAt bytes 0).extractLsb' 4 1
    sequenceNumber := (byteAt bytes 0).extractLsb' 0 4 ++ byteAt bytes 1
    receiverAddress := get32 bytes 2
    transmitterAddress := get32 bytes 6 }

/-- `dec_MUX` (R159). -/
def decMux (bytes : List Byte) : MuxBank :=
  let b0 := byteAt bytes 0
  let form := b0.extractLsb' 6 2
  if form = 0#2 then { macExt := form, ieType := b0.extractLsb' 0 6 }
  else if form = 1#2 then { macExt := form, ieType := b0.extractLsb' 0 6, length := (byteAt bytes 1).setWidth 16 }
  else if form = 2#2 then { macExt := form, ieType := b0.extractLsb' 0 6, length := byteAt bytes 1 ++ byteAt bytes 2 }
  else { macExt := form, ieType := (b0.extractLsb' 0 5).setWidth 6, length := (b0.extractLsb' 5 1).setWidth 16 }

/-- `dec_NB` (R173); `i1` to `i3` are the running index before each optional piece. -/
def decNb (bytes : List Byte) : NbBank :=
  let b0 := byteAt bytes 0
  let tx := b0.extractLsb' 4 1
  let cur := b0.extractLsb' 2 1
  let n := b0.extractLsb' 0 2
  let i1 := 8
  let i2 := i1 + tx.toNat
  let i3 := i2 + 2 * cur.toNat
  { txPowerFlag := tx, powerConst := b0.extractLsb' 3 1, currentFlag := cur, nbChannels := n
    nbPeriod := (byteAt bytes 1).extractLsb' 4 4, cbPeriod := (byteAt bytes 1).extractLsb' 0 4
    nextClusterChannel := get13 bytes 2
    timeToNext := get32 bytes 4
    clustersMaxTxPower := gated (tx = 1#1) ((byteAt bytes i1).extractLsb' 0 4)
    currentClusterChannel := gated (cur = 1#1) (get13 bytes i2)
    additionalChannel := Triple.keep ⟨get13 bytes i3, get13 bytes (i3 + 2), get13 bytes (i3 + 4)⟩ n.toNat }

/-- `dec_CB` (R183). -/
def decCb (bytes : List Byte) : CbBank :=
  let b1 := byteAt bytes 1
  let b3 := byteAt bytes 3
  let tx := b1.extractLsb' 4 1
  let fo := b1.extractLsb' 2 1
  let nx := b1.extractLsb' 1 1
  let tt := b1.extractLsb' 0 1
  let i1 := 4
  let i2 := i1 + tx.toNat
  let i3 := i2 + fo.toNat
  let i4 := i3 + 2 * nx.toNat
  { sfn := byteAt bytes 0, txPowerFlag := tx, powerConst := b1.extractLsb' 3 1, foFlag := fo, nextChannelFlag := nx
    timeToNextFlag := tt
    nbPeriod := (byteAt bytes 2).extractLsb' 4 4, cbPeriod := (byteAt bytes 2).extractLsb' 0 4
    countToTrigger := b3.extractLsb' 4 4, relQuality := b3.extractLsb' 2 2, minQuality := b3.extractLsb' 0 2
    clustersMaxTxPower := gated (tx = 1#1) ((byteAt bytes i1).extractLsb' 0 4)
    frameOffset := gated (fo = 1#1) (byteAt bytes i2)
    nextClusterChannel := gated (nx = 1#1) (get13 bytes i3)
    timeToNext := gated (tt = 1#1) (get32 bytes i4) }

/-- The flow identifiers at index `i` and after (R194, R203); bits 7 and 6 of each byte are ignored. -/
def getFlows (bytes : List Byte) (i : Nat) (n : Nat) : Six (BitVec 6) :=
  Six.keep ⟨(byteAt bytes i).extractLsb' 0 6, (byteAt bytes (i + 1)).extractLsb' 0 6,
    (byteAt bytes (i + 2)).extractLsb' 0 6, (byteAt bytes (i + 3)).extractLsb' 0 6,
    (byteAt bytes (i + 4)).extractLsb' 0 6, (byteAt bytes (i + 5)).extractLsb' 0 6⟩ n

/-- `dec_AREQ` (R194). -/
def decAreq (bytes : List Byte) : AreqBank :=
  let b0 := byteAt bytes 0
  let nf := b0.extractLsb' 2 3
  let ft := b0.extractLsb' 0 1
  let cur := (byteAt bytes 1).extractLsb' 7 1
  let i1 := 4
  let i2 := i1 + flows nf
  { setupCause := b0.extractLsb' 5 3, numberOfFlows := nf, powerConst := b0.extractLsb' 1 1, ftMode := ft
    currentFlag := cur
    harqProcessesTx := (byteAt bytes 2).extractLsb' 5 3, maxHarqReTx := (byteAt bytes 2).extractLsb' 0 5
    harqProcessesRx := (byteAt bytes 3).extractLsb' 5 3, maxHarqReRx := (byteAt bytes 3).extractLsb' 0 5
    flowId := getFlows bytes i1 (flows nf)
    nbPeriod := gated (ft = 1#1) ((byteAt bytes i2).extractLsb' 4 4)
    cbPeriod := gated (ft = 1#1) ((byteAt bytes i2).extractLsb' 0 4)
    nextClusterChannel := gated (ft = 1#1) (get13 bytes (i2 + 1))
    timeToNext := gated (ft = 1#1) (get32 bytes (i2 + 3))
    currentClusterChannel := gated (ft = 1#1 ∧ cur = 1#1) (get13 bytes (i2 + 7)) }

/-- `dec_ARSP` (R203). -/
def decArsp (bytes : List Byte) : ArspBank :=
  let b0 := byteAt bytes 0
  let ack := b0.extractLsb' 7 1
  let hm := b0.extractLsb' 5 1
  let nf := b0.extractLsb' 2 3
  let gr := b0.extractLsb' 1 1
  if ack = 0#1 then
    { ackNack := ack, harqMod := hm, numberOfFlows := nf, group := gr
      rejectCause := (byteAt bytes 1).extractLsb' 4 4, rejectTime := (byteAt bytes 1).extractLsb' 0 4 }
  else
    let i1 := 1
    let i2 := i1 + 2 * hm.toNat
    let i3 := i2 + flows nf
    { ackNack := ack, harqMod := hm, numberOfFlows := nf, group := gr
      harqProcessesRx := gated (hm = 1#1) ((byteAt bytes i1).extractLsb' 5 3)
      maxHarqReRx := gated (hm = 1#1) ((byteAt bytes i1).extractLsb' 0 5)
      harqProcessesTx := gated (hm = 1#1) ((byteAt bytes (i1 + 1)).extractLsb' 5 3)
      maxHarqReTx := gated (hm = 1#1) ((byteAt bytes (i1 + 1)).extractLsb' 0 5)
      flowId := getFlows bytes i2 (flows nf)
      groupId := gated (gr = 1#1) ((byteAt bytes i3).extractLsb' 0 7)
      resourceTag := gated (gr = 1#1) ((byteAt bytes (i3 + 1)).extractLsb' 0 7) }

/-- `dec_RAR` (R213). -/
def decRar (bytes : List Byte) : RarBank :=
  let b0 := byteAt bytes 0
  let b2 := byteAt bytes 2
  let b3 := byteAt bytes 3
  let b4 := byteAt bytes 4
  let rep := b0.extractLsb' 3 2
  let sf := b0.extractLsb' 2 1
  let c1 := b0.extractLsb' 1 1
  let c2 := b0.extractLsb' 0 1
  let i1 := 5
  let i2 := if rep ≠ 0#2 then i1 + 2 else i1
  let i3 := i2 + sf.toNat
  let i4 := i3 + 2 * c1.toNat
  { repeatMode := rep, sfnFlag := sf, channelFlag := c1, chan2Flag := c2, startSubslot := byteAt bytes 1
    lengthType := b2.extractLsb' 7 1, length := b2.extractLsb' 0 7
    maxLenType := b3.extractLsb' 7 1, maxRachLength := b3.extractLsb' 3 4, cwMinSig := b3.extractLsb' 0 3
    dectDelay := b4.extractLsb' 7 1, responseWindow := b4.extractLsb' 3 4, cwMaxSig := b4.extractLsb' 0 3
    repetition := gated (rep ≠ 0#2) (byteAt bytes i1), validity := gated (rep ≠ 0#2) (byteAt bytes (i1 + 1))
    sfnOffset := gated (sf = 1#1) (byteAt bytes i2)
    channel := gated (c1 = 1#1) (get13 bytes i3)
    channel2 := gated (c2 = 1#1) (get13 bytes i4) }

/-- `dec_RDC` (R224). -/
def decRdc (bytes : List Byte) : RdcBank :=
  let b0 := byteAt bytes 0
  let b1 := byteAt bytes 1
  let b2 := byteAt bytes 2
  let b3 := byteAt bytes 3
  let b4 := byteAt bytes 4
  let b5 := byteAt bytes 5
  { numPhyCap := b0.extractLsb' 5 3, release := b0.extractLsb' 0 5
    groupAss := b1.extractLsb' 5 1, paging := b1.extractLsb' 4 1, operatingModes := b1.extractLsb' 2 2
    mesh := b1.extractLsb' 1 1, schedul := b1.extractLsb' 0 1
    macSecurity := b2.extractLsb' 5 3, dlcServiceType := b2.extractLsb' 2 3
    rdPowerClass := b3.extractLsb' 4 3, maxNssRx := b3.extractLsb' 2 2, rxForTxDiversity := b3.extractLsb' 0 2
    rxGain := b4.extractLsb' 4 4, maxMcs := b4.extractLsb' 0 4
    softBufferSize := b5.extractLsb' 4 4, numHarqProcesses := b5.extractLsb' 2 2
    harqFeedbackDelay := (byteAt bytes 6).extractLsb' 0 4 }

/-- `dec_ACI` (R228). -/
def decAci (bytes : List Byte) : AciBank :=
  let b0 := byteAt bytes 0
  { cbM := b0.extractLsb' 7 1, dlDataReception := b0.extractLsb' 4 3, ulPeriod := b0.extractLsb' 0 4 }

/-- `dec_B`: one bank replaced by what the bytes carry (40_codec_common.md R117, R120). -/
def Banks.load (B : Banks) (b : Bank) (bytes : List Byte) : Banks :=
  match b with
  | .mht => { B with mht := decMht bytes }
  | .bh => { B with bh := decBh bytes }
  | .uh => { B with uh := decUh bytes }
  | .mux => { B with mux := decMux bytes }
  | .nb => { B with nb := decNb bytes }
  | .cb => { B with cb := decCb bytes }
  | .areq => { B with areq := decAreq bytes }
  | .arsp => { B with arsp := decArsp bytes }
  | .rar => { B with rar := decRar bytes }
  | .rdc => { B with rdc := decRdc bytes }
  | .aci => { B with aci := decAci bytes }

/-- `size_from_prefix_B`: `size_B` on the flags found in the mandatory part (R93, R117). -/
def sizeFromPrefix (b : Bank) (pre : List Byte) : Nat := (({} : Banks).load b pre).size b

/-! ### The wire rows as instructions -/

/-- The wire row that the bytes of a structure are, the structure type being known: one row for most types, one for each
form of `MUX` and `ARSP` (R155, R200). -/
def wireInstr (b : Bank) (bytes : List Byte) : Instr :=
  match b with
  | .mht => .mht (decMht bytes)
  | .bh => .bh (decBh bytes)
  | .uh => .uh (decUh bytes)
  | .mux =>
    let m := decMux bytes
    if m.macExt = 0#2 then .muxForm0 m.ieType
    else if m.macExt = 1#2 then .muxForm1 m.ieType (m.length.setWidth 8)
    else if m.macExt = 2#2 then .muxForm2 m.ieType m.length
    else .muxForm3 (m.ieType.setWidth 5) (m.length.setWidth 1)
  | .nb => .nb (decNb bytes)
  | .cb => .cb (decCb bytes)
  | .areq => .areq (decAreq bytes)
  | .arsp => let m := decArsp bytes; if m.ackNack = 0#1 then .arspReject m else .arspAccept m
  | .rar => .rar (decRar bytes)
  | .rdc => .rdc (decRdc bytes)
  | .aci => .aci (decAci bytes)

/-- Read one structure of a known type from the front of a byte list: the wire row and the bytes after it; nothing if the
bytes end before the structure does (R93). -/
def decodeWire (b : Bank) (bytes : List Byte) : Option (Instr × List Byte) :=
  if bytes.length < b.prefixBytes then none
  else
    let n := sizeFromPrefix b (bytes.take b.prefixBytes)
    if bytes.length < n then none else some (wireInstr b (bytes.take n), bytes.drop n)

/-! ### Command records -/

/-- Why a byte string is no legal command (R89); `length` names a string that is no 17-byte record at all (R81). -/
inductive Illegal where
  /-- not 17 bytes -/
  | length
  /-- unassigned opcode (R84) -/
  | opcode
  /-- bank selector out of range (R85) -/
  | bank
  /-- field selector out of range (R86) -/
  | field
  /-- index out of range (R87) -/
  | index
  /-- `DISP` of a bank other than `MHT` and `MUX` (R89) -/
  | dispBank
  /-- `sel` operand out of range (R89) -/
  | sel
  /-- must-be-zero operand bits not zero (R82, R88) -/
  | mustBeZero
deriving DecidableEq, Repr

/-- What the decoder answers. -/
inductive Decoded where
  /-- a command -/
  | ok (i : Instr)
  /-- a rejected record, with its reason -/
  | illegal (why : Illegal)
deriving DecidableEq, Repr

/-- Decode the bank operand and go on (R85). -/
def withBank (a0 : Word) (f : Bank → Decoded) : Decoded :=
  match Bank.ofSel a0.toNat with
  | none => .illegal .bank
  | some b => f b

/-- Decode the bank, field and index operands and go on (R85 to R87). -/
def withReg (a0 a1 a2 : Word) (f : Reg → Decoded) : Decoded :=
  withBank a0 fun b =>
    if b.fieldCount ≤ a1.toNat then .illegal .field
    else match Reg.ofSel b a1.toNat a2.toNat with
      | none => .illegal .index
      | some r => f r

/-- Decode the `slotsub` operand, `slot << 8 | subslot` with bits 31:16 zero, and go on (R82). -/
def withSlotSub (a2 : Word) (f : Byte → Byte → Decoded) : Decoded :=
  if a2.extractLsb' 16 16 = 0#16 then f (a2.extractLsb' 8 8) (a2.extractLsb' 0 8) else .illegal .mustBeZero

/-- The `sel` operand of `BANDPARM` (R244). -/
def BandSel.ofSel : Nat → Option BandSel
  | 0 => some .start
  | 1 => some .stop
  | 2 => some .step
  | 3 => some .nStart
  | 4 => some .nEnd
  | _ => none

/-- The number of a `BANDPARM` selector (R244). -/
def BandSel.sel : BandSel → Word
  | .start => 0#32
  | .stop => 1#32
  | .step => 2#32
  | .nStart => 3#32
  | .nEnd => 4#32

/-- The `sel` operand of `SSGET` (R252). -/
def SubslotSel.ofSel : Nat → Option SubslotSel
  | 0 => some .status
  | 1 => some .rssi
  | 2 => some .duration
  | _ => none

/-- The number of an `SSGET` selector (R252). -/
def SubslotSel.sel : SubslotSel → Word
  | .status => 0#32
  | .rssi => 1#32
  | .duration => 2#32

/-- The `sel` operand of `TLOC` (R254). -/
def TimeSel.ofSel : Nat → Option TimeSel
  | 0 => some .frame
  | 1 => some .slot
  | 2 => some .subslot
  | 3 => some .offset
  | 4 => some .sfn
  | _ => none

/-- The number of a `TLOC` selector (R254). -/
def TimeSel.sel : TimeSel → Word
  | .frame => 0#32
  | .slot => 1#32
  | .subslot => 2#32
  | .offset => 3#32
  | .sfn => 4#32

/-- Decode a `sel` operand by its table and go on (R89). -/
def withSel {α : Type} (s : Option α) (f : α → Decoded) : Decoded :=
  match s with
  | none => .illegal .sel
  | some x => f x

/-- The opcode map and the operand use of R82; every other opcode is illegal (R84, R89). Operands a command does not use
are ignored (R81). -/
def decodeOperands (op : Byte) (a0 a1 a2 a3 : Word) : Decoded :=
  match op.toNat with
  | 0x00 => .ok .nop
  | 0x01 => withBank a0 fun b => .ok (.rst b)
  | 0x02 => withReg a0 a1 a2 fun r => .ok (.set r a3)
  | 0x03 => withReg a0 a1 a2 fun r => .ok (.get r)
  | 0x04 => withBank a0 fun b => .ok (.size b)
  | 0x05 => withBank a0 fun b => .ok (.ser b)
  | 0x06 => withBank a0 fun b => .ok (.des b)
  | 0x07 => withBank a0 fun b => if b = .mht ∨ b = .mux then .ok (.disp b) else .illegal .dispBank
  | 0x08 => .ok (.seek a0)
  | 0x09 => .ok .tell
  | 0x0A => .ok (.bufwr a0 a1)
  | 0x0B => .ok (.bufrd a0)
  | 0x10 => .ok (.chinit a0 a1)
  | 0x11 => .ok (.chvalid a0)
  | 0x12 => withSel (BandSel.ofSel a1.toNat) fun x => .ok (.bandparm a0 x)
  | 0x13 => .ok (.cfreq a0 a1)
  | 0x14 => .ok (.chfreq a0)
  | 0x15 => .ok (.chid a0)
  | 0x16 => .ok (.bin a0 a1)
  | 0x17 => withSlotSub a2 fun slot sub => withSel (SubslotSel.ofSel a3.toNat) fun x => .ok (.ssget a0 a1 slot sub x)
  | 0x18 => withSlotSub a2 fun slot sub =>
      if a3.extractLsb' 18 14 = 0#14 then .ok (.ssset a0 a1 slot sub (a3.extractLsb' 16 2) (a3.extractLsb' 0 16))
      else .illegal .mustBeZero
  | 0x19 => withSel (TimeSel.ofSel a1.toNat) fun x => .ok (.tloc a0 x (a2 ++ a3))
  | 0x20 => .ok (.pwadd a0 a1 (a2 ++ a3))
  | 0x21 => .ok (.pwsub a0 a1 (a2 ++ a3))
  | 0x22 => .ok (.rssi a0 a1)
  | 0x23 => .ok (.w2dbm (a2 ++ a3))
  | 0x30 => .ok .stclr
  | 0x31 => .ok .stget
  | _ => .illegal .opcode

/-- Decode a command record: `op = rec[135:128]`, `A0 = rec[127:96]`, `A1 = rec[95:64]`, `A2 = rec[63:32]`,
`A3 = rec[31:0]` (R81). -/
def decodeRecord (r : Record) : Decoded :=
  decodeOperands (r.extractLsb' 128 8) (r.extractLsb' 96 32) (r.extractLsb' 64 32) (r.extractLsb' 32 32)
    (r.extractLsb' 0 32)

/-- The record of 17 bytes, byte 0 most significant (R81); no other length is a record. -/
def recordOfBytes : List Byte → Option Record
  | [op, a, b, c, d, e, f, g, h, i, j, k, l, m, n, o, p] =>
    some (op ++ (a ++ b ++ c ++ d) ++ (e ++ f ++ g ++ h) ++ (i ++ j ++ k ++ l) ++ (m ++ n ++ o ++ p))
  | _ => none

/-- Decode any byte string as a command (R81, R89): total, rejecting by name. -/
def decode (bytes : List Byte) : Decoded :=
  match recordOfBytes bytes with
  | none => .illegal .length
  | some r => decodeRecord r

/-! ### The encoder -/

/-- The opcode of a command (R82); a wire row has none. -/
def Instr.opcode : Instr → Option Byte
  | .nop => some 0x00#8
  | .rst _ => some 0x01#8
  | .set _ _ => some 0x02#8
  | .get _ => some 0x03#8
  | .size _ => some 0x04#8
  | .ser _ => some 0x05#8
  | .des _ => some 0x06#8
  | .disp _ => some 0x07#8
  | .seek _ => some 0x08#8
  | .tell => some 0x09#8
  | .bufwr _ _ => some 0x0A#8
  | .bufrd _ => some 0x0B#8
  | .chinit _ _ => some 0x10#8
  | .chvalid _ => some 0x11#8
  | .bandparm _ _ => some 0x12#8
  | .cfreq _ _ => some 0x13#8
  | .chfreq _ => some 0x14#8
  | .chid _ => some 0x15#8
  | .bin _ _ => some 0x16#8
  | .ssget _ _ _ _ _ => some 0x17#8
  | .ssset _ _ _ _ _ _ => some 0x18#8
  | .tloc _ _ _ => some 0x19#8
  | .pwadd _ _ _ => some 0x20#8
  | .pwsub _ _ _ => some 0x21#8
  | .rssi _ _ => some 0x22#8
  | .w2dbm _ => some 0x23#8
  | .stclr => some 0x30#8
  | .stget => some 0x31#8
  | .mht _ | .bh _ | .uh _ | .muxForm0 _ | .muxForm1 _ _ | .muxForm2 _ _ | .muxForm3 _ _ => none
  | .nb _ | .cb _ | .areq _ | .arspReject _ | .arspAccept _ | .rar _ | .rdc _ | .aci _ => none

/-- The `slotsub` operand (R82). -/
def slotSubOperand (slot subslot : Byte) : Word := 0#16 ++ slot ++ subslot

/-- The `SSSET` operand `A3 = status << 16 | rssi[15:0]` (R82, R88). -/
def statusRssiOperand (status : BitVec 2) (rssi : BitVec 16) : Word := 0#14 ++ status ++ rssi

/-- The high word of a 64-bit operand (R88). -/
def highWord (v : DWord) : Word := v.extractLsb' 32 32

/-- The low word of a 64-bit operand (R88). -/
def lowWord (v : DWord) : Word := v.extractLsb' 0 32

/-- The selector operands of a register (R85 to R87). -/
def Reg.bankWord (r : Reg) : Word := BitVec.ofNat 32 r.bank.sel
/-- The field selector operand of a register (R86). -/
def Reg.fieldWord (r : Reg) : Word := BitVec.ofNat 32 r.sel.1
/-- The index operand of a register (R87). -/
def Reg.idxWord (r : Reg) : Word := BitVec.ofNat 32 r.sel.2
/-- The selector operand of a bank (R85). -/
def Bank.word (b : Bank) : Word := BitVec.ofNat 32 b.sel

/-- The operands `A0`, `A1`, `A2`, `A3` of a command; an unused operand is 0 (R81, R82). -/
def Instr.operands : Instr → Word × Word × Word × Word
  | .rst b | .size b | .ser b | .des b | .disp b => (b.word, 0#32, 0#32, 0#32)
  | .set r v => (r.bankWord, r.fieldWord, r.idxWord, v)
  | .get r => (r.bankWord, r.fieldWord, r.idxWord, 0#32)
  | .seek a | .bufrd a => (a, 0#32, 0#32, 0#32)
  | .bufwr a v => (a, v, 0#32, 0#32)
  | .chinit band mu => (band, mu, 0#32, 0#32)
  | .chvalid band => (band, 0#32, 0#32, 0#32)
  | .bandparm band x => (band, x.sel, 0#32, 0#32)
  | .cfreq band n | .bin band n | .rssi band n => (band, n, 0#32, 0#32)
  | .chfreq n => (n, 0#32, 0#32, 0#32)
  | .chid f => (f, 0#32, 0#32, 0#32)
  | .ssget band n slot sub x => (band, n, slotSubOperand slot sub, x.sel)
  | .ssset band n slot sub st rs => (band, n, slotSubOperand slot sub, statusRssiOperand st rs)
  | .tloc band x t => (band, x.sel, highWord t, lowWord t)
  | .pwadd band n p | .pwsub band n p => (band, n, highWord p, lowWord p)
  | .w2dbm p => (0#32, 0#32, highWord p, lowWord p)
  | .nop | .tell | .stclr | .stget => (0#32, 0#32, 0#32, 0#32)
  | .mht _ | .bh _ | .uh _ | .muxForm0 _ | .muxForm1 _ _ | .muxForm2 _ _ | .muxForm3 _ _ => (0#32, 0#32, 0#32, 0#32)
  | .nb _ | .cb _ | .areq _ | .arspReject _ | .arspAccept _ | .rar _ | .rdc _ | .aci _ => (0#32, 0#32, 0#32, 0#32)

/-- A record from its opcode and operands (R81). -/
def packRecord (op : Byte) (a : Word × Word × Word × Word) : Record := op ++ a.1 ++ a.2.1 ++ a.2.2.1 ++ a.2.2.2

/-- The record of a command (R81, R82); a wire row has none. -/
def encodeRecord (i : Instr) : Option Record := i.opcode.map fun op => packRecord op i.operands

/-- The 17 bytes of a record, byte 0 first (R81). -/
def recordBytes (r : Record) : List Byte :=
  [r.extractLsb' 128 8] ++ put32 (r.extractLsb' 96 32) ++ put32 (r.extractLsb' 64 32) ++ put32 (r.extractLsb' 32 32)
    ++ put32 (r.extractLsb' 0 32)

/-- The structure type of a wire row; a command has none. -/
def Instr.wireBank : Instr → Option Bank
  | .mht _ => some .mht
  | .bh _ => some .bh
  | .uh _ => some .uh
  | .muxForm0 _ | .muxForm1 _ _ | .muxForm2 _ _ | .muxForm3 _ _ => some .mux
  | .nb _ => some .nb
  | .cb _ => some .cb
  | .areq _ => some .areq
  | .arspReject _ | .arspAccept _ => some .arsp
  | .rar _ => some .rar
  | .rdc _ => some .rdc
  | .aci _ => some .aci
  | .nop | .rst _ | .set _ _ | .get _ | .size _ | .ser _ | .des _ | .disp _ | .seek _ | .tell | .bufwr _ _ => none
  | .bufrd _ | .chinit _ _ | .chvalid _ | .bandparm _ _ | .cfreq _ _ | .chfreq _ | .chid _ | .bin _ _ => none
  | .ssget _ _ _ _ _ | .ssset _ _ _ _ _ _ | .tloc _ _ _ | .pwadd _ _ _ | .pwsub _ _ _ | .rssi _ _ => none
  | .w2dbm _ | .stclr | .stget => none

/-- The multiplexing header of each form as the contents of bank `MUX` (R155). -/
def muxBankForm0 (ieType : BitVec 6) : MuxBank := { macExt := 0#2, ieType := ieType }
/-- Form 1: 8-bit length (R155). -/
def muxBankForm1 (ieType : BitVec 6) (length : BitVec 8) : MuxBank :=
  { macExt := 1#2, ieType := ieType, length := length.setWidth 16 }
/-- Form 2: 16-bit length (R155). -/
def muxBankForm2 (ieType : BitVec 6) (length : BitVec 16) : MuxBank :=
  { macExt := 2#2, ieType := ieType, length := length }
/-- Form 3: 1-bit length, 5-bit type (R155, R159). -/
def muxBankForm3 (ieType : BitVec 5) (length : BitVec 1) : MuxBank :=
  { macExt := 3#2, ieType := ieType.setWidth 6, length := length.setWidth 16 }

/-- The bytes of a wire row, those of `enc_B` (files 41 to 44); a command has none here. -/
def encodeWire : Instr → List Byte
  | .mht w => encMht w
  | .bh w => encBh w
  | .uh w => encUh w
  | .muxForm0 t => encMux (muxBankForm0 t)
  | .muxForm1 t l => encMux (muxBankForm1 t l)
  | .muxForm2 t l => encMux (muxBankForm2 t l)
  | .muxForm3 t l => encMux (muxBankForm3 t l)
  | .nb w => encNb w
  | .cb w => encCb w
  | .areq w => encAreq w
  | .arspReject w => encArsp w
  | .arspAccept w => encArsp w
  | .rar w => encRar w
  | .rdc w => encRdc w
  | .aci w => encAci w
  | .nop | .rst _ | .set _ _ | .get _ | .size _ | .ser _ | .des _ | .disp _ | .seek _ | .tell | .bufwr _ _ => []
  | .bufrd _ | .chinit _ _ | .chvalid _ | .bandparm _ _ | .cfreq _ _ | .chfreq _ | .chid _ | .bin _ _ => []
  | .ssget _ _ _ _ _ | .ssset _ _ _ _ _ _ | .tloc _ _ _ | .pwadd _ _ _ | .pwsub _ _ _ | .rssi _ _ => []
  | .w2dbm _ | .stclr | .stget => []

/-- The bytes of an instruction: 17 for a command (R81), those of its structure for a wire row. -/
def encode (i : Instr) : List Byte :=
  match encodeRecord i with
  | some r => recordBytes r
  | none => encodeWire i

/-! ### Rows of spec/opcode_table.json -/

/-- Length of the longest instruction in bytes: the `AREQ` row (R90). -/
def longestInstr : Nat := 19

/-- A table word of a command row is the 136-bit record itself, byte 0 most significant (log entry 3). -/
def tableWordIsRecord (nbits : Nat) : Bool := nbits == 136

/-- The record given as one number, byte 0 most significant (R81). -/
def tableRecord (w : Nat) : Record := BitVec.ofNat 136 w

/-- The bytes of a wire row: the first byte is bits 7:0, the next bits 15:8, and so on; zeros after the last. -/
def tableWireBytes (w : Nat) : List Byte := (List.range longestInstr).map fun i => BitVec.ofNat 8 (w / 256 ^ i)

/-- DESIGN CHOICE (safe, log entry 3): the structure type of a wire row's table word. The bytes alone do not say it (R94), so
the length does, where several rows share a length one of them. -/
def tableWireBank (nbits w : Nat) : Option Bank :=
  if nbits = 8 then some .mux
  else if nbits = 16 then (if w % 256 < 64 then some .arsp else some .mux)
  else if nbits = 24 then some .mux
  else if nbits = 56 then some .bh
  else if nbits = 80 then some .uh
  else if nbits = 88 then some .arsp
  else if nbits = 96 then some .cb
  else if nbits = 152 then some .areq
  else none

/-- The instruction the decoder reads from a row of spec/opcode_table.json (log entry 3). -/
def decodeTableWord (nbits w : Nat) : Option Instr :=
  if tableWordIsRecord nbits then
    match decode (recordBytes (tableRecord w)) with
    | .ok i => some i
    | .illegal _ => none
  else
    match tableWireBank nbits w with
    | none => none
    | some b => (decodeWire b (tableWireBytes w)).map Prod.fst

end Sys2Proof
end

