-- ==== Sys2Proof/Machine/State.lean ====
section
/-! DEFINITION. The state of DPCR as plain data (10_state.md R20), the state after reset (70_reset_and_hazards.md R331), the
fault codes and responses of the block (60_exceptions.md R301, 30_encoding.md R83), and the reasons a step of the model can
stop. -/

namespace Sys2Proof.Machine

/-- The fault codes of a response (R301); a fault is an answer, not a stop. -/
inductive FaultCode where
  /-- 0: the command completed -/
  | ok
  /-- 1: a value operand out of range (R302) -/
  | invalidArgument
  /-- 2: an unsupported band; halts the block (R303) -/
  | fatalConfiguration
  /-- 3: a buffer access or cursor past `BUF_SIZE` (R304) -/
  | bufferOverrun
  /-- 4: the band's channel list is not built (R305) -/
  | notInitialized
  /-- 5: an illegal command record (R306) -/
  | illegalCommand
  /-- 6: the block is halted (R307) -/
  | halted
  /-- 7: the accumulator cannot hold the exact result (R308) -/
  | accumulatorOverflow
deriving DecidableEq, Repr

/-- A response: fault code, `R0`, `R1` (R83). -/
structure Response where
  /-- byte 0 -/
  fault : FaultCode
  /-- bytes 1..4 -/
  r0 : Word
  /-- bytes 5..8 -/
  r1 : Word
deriving DecidableEq, Repr

/-- `STATUS` by its fields (10_state.md R36); bits 7:3 are always 0 and hold nothing (log entry 9). -/
structure Status where
  /-- bit 0 `FATAL` -/
  fatal : Bool := false
  /-- bit 1 `WARN` -/
  warn : Bool := false
  /-- bit 2 `FAULT_SEEN` -/
  faultSeen : Bool := false
  /-- bits 15:8 `LAST_FAULT` -/
  lastFault : FaultCode := .ok
deriving DecidableEq, Repr

/-- A legal subcarrier scaling factor (R8 `MU_SET`, R42 `MU[b]`). -/
inductive Mu where
  | mu1 | mu2 | mu4 | mu8
deriving DecidableEq, Repr

/-- The status of a subslot (R43); code 3 is never held. -/
inductive SlotStatus where
  | free | possible | busy
deriving DecidableEq, Repr

/-- A subslot record (R43). -/
structure SubRec where
  /-- FREE, POSSIBLE or BUSY -/
  status : SlotStatus
  /-- signed dBm sample -/
  rssi : BitVec 16
  /-- length in ticks -/
  duration : BitVec 16
deriving DecidableEq, Repr

/-- The channel table of one band while `CH_INIT[b] = 1` (R42): the scaling factor, and the subslot records that differ from
the record `CHINIT` writes, by rising key (log entry 8). -/
structure ChanTable where
  /-- `MU[b]` -/
  mu : Mu
  /-- `SUB[b]`; an unlisted key reads as the record of `CHINIT` -/
  subs : Cells SubRec
deriving DecidableEq, Repr

/-- The spectral model of one band while `SPEC_INIT[b] = 1` (R44): the accumulators that are not 0, by rising index. -/
structure SpecModel where
  /-- `PWR[b]`; an unlisted index reads as 0 -/
  pwr : Cells (BitVec 64)
deriving DecidableEq, Repr

/-- One value for each supported band. -/
structure PerBand (α : Type) where
  /-- band 1 -/
  b1 : α
  /-- band 2 -/
  b2 : α
  /-- band 20 -/
  b20 : α
  /-- band 21 -/
  b21 : α
deriving DecidableEq, Repr

/-- The value of one band. -/
def PerBand.get {α : Type} (p : PerBand α) : Band → α
  | .b1 => p.b1
  | .b2 => p.b2
  | .b20 => p.b20
  | .b21 => p.b21

/-- Replace the value of one band. -/
def PerBand.set {α : Type} (p : PerBand α) (v : α) : Band → PerBand α
  | .b1 => { p with b1 := v }
  | .b2 => { p with b2 := v }
  | .b20 => { p with b20 := v }
  | .b21 => { p with b21 := v }

/-- The byte buffer: the bytes written since reset, by rising address (R39). An unlisted byte has no written value; what
a read of it gives is `bufByte`'s to say (log entry 4). -/
abbrev Memory := List Host.Cell

/-- What the host can do to the block (log entries 1 and 10). -/
inductive HostEvent where
  /-- present a command record at the port (R81) -/
  | command (r : Record)
  /-- assert the reset input (R330) -/
  | reset
deriving DecidableEq, Repr

/-- The state: R20's tuple, and three fields of the model's own. -/
structure State where
  /-- the field registers (R20 to R32) -/
  banks : Banks
  /-- `CUR` (R37) -/
  cur : BitVec 12
  /-- `BUF` (R39) -/
  buf : Memory
  /-- `STATUS` (R36) -/
  status : Status
  /-- `CH_INIT`, `MU`, `SUB`: absent while `CH_INIT[b] = 0` (R42, R45; log entry 7) -/
  chan : PerBand (Option ChanTable)
  /-- `SPEC_INIT`, `PWR`: absent while `SPEC_INIT[b] = 0` (R44, R45; log entry 7) -/
  spec : PerBand (Option SpecModel)
  /-- the model's own: host events the block has not taken yet (log entry 1) -/
  inbox : List HostEvent
  /-- the model's own: responses given, oldest first (log entry 1) -/
  responses : List Response
  /-- the model's own: assertions of reset so far, which index the free contents of `BUF` (log entry 10) -/
  epoch : Nat
deriving DecidableEq, Repr

/-- The block right after reset (R331). -/
def State.reset : State :=
  { banks := {}
    cur := 0#12
    buf := []
    status := {}
    chan := ⟨none, none, none, none⟩
    spec := ⟨none, none, none, none⟩
    inbox := []
    responses := []
    epoch := 0 }

/-- The faults a step could stop with: none. Every fault of the spec is a response, after which the block goes on or is
halted and still answers (60_exceptions.md R300, R311; log entry 11). -/
inductive Fault : Type
deriving DecidableEq, Repr

/-- The refusals a step could stop with. -/
inductive Refusal where
  /-- Raised by `exec` for an instruction without a meaning; no arm does so. Safe: the model stops. -/
  | notModelled (mnemonic : String)
deriving DecidableEq, Repr

end Sys2Proof.Machine
end

