-- ==== Sys2Proof/Machine/Flags.lean ====
section
/-! DEFINITION. `STATUS` and the fault codes: the word `STGET` reads (10_state.md R36), what a command's end writes
(60_exceptions.md R310), the sticky bits and their clearing (R246, R312), the bytes of a response (30_encoding.md R83). -/

namespace Sys2Proof.Machine

/-- The number of a fault code (R301). -/
def FaultCode.code : FaultCode → Byte
  | .ok => 0#8
  | .invalidArgument => 1#8
  | .fatalConfiguration => 2#8
  | .bufferOverrun => 3#8
  | .notInitialized => 4#8
  | .illegalCommand => 5#8
  | .halted => 6#8
  | .accumulatorOverflow => 7#8

/-- One bit. -/
def bit (b : Bool) : BitVec 1 := BitVec.ofBool b

/-- The 16-bit `STATUS` word: `LAST_FAULT` in 15:8, zeros in 7:3, `FAULT_SEEN`, `WARN`, `FATAL` (R36). -/
def Status.word (t : Status) : BitVec 16 := t.lastFault.code ++ 0#5 ++ bit t.faultSeen ++ bit t.warn ++ bit t.fatal

/-- `STATUS` at the end of a command other than `STGET` that answers code `c` (R310). -/
def Status.record (t : Status) (c : FaultCode) : Status :=
  { t with
    lastFault := c
    faultSeen := t.faultSeen || decide (c ≠ .ok)
    fatal := t.fatal || decide (c = .fatalConfiguration) }

/-- The scaling-factor warning (R246). -/
def Status.setWarn (t : Status) : Status := { t with warn := true }

/-- What `STCLR` clears (R128, R312). -/
def Status.clearSticky (t : Status) : Status := { t with warn := false, faultSeen := false }

/-- The nine bytes of a response: the code, `R0`, `R1`, each word most significant byte first (R83). -/
def Response.bytes (r : Response) : List Byte :=
  [r.fault.code,
    r.r0.extractLsb' 24 8, r.r0.extractLsb' 16 8, r.r0.extractLsb' 8 8, r.r0.extractLsb' 0 8,
    r.r1.extractLsb' 24 8, r.r1.extractLsb' 16 8, r.r1.extractLsb' 8 8, r.r1.extractLsb' 0 8]

end Sys2Proof.Machine
end

