-- ==== Sys2Proof/Machine/Ops.lean ====
section
/-! DEFINITION. The shared operations: cells at rising keys, the byte buffer (20_memory.md R60 to R64), taking a fault and the
return from one (60_exceptions.md R310, R312), the common checks around every command (40_codec_common.md R110), the reset
input (70_reset_and_hazards.md R330), and the buffer side of `SER` and `DES`. -/

namespace Sys2Proof.Machine

/-! ### Cells at rising keys -/

/-- The value listed at a key. -/
def cellsFind {α : Type} : Cells α → Nat → Option α
  | [], _ => none
  | (k, v) :: m, a => if a = k then some v else cellsFind m a

/-- List a value at a key, keeping the keys rising. -/
def cellsPut {α : Type} : Cells α → Nat → α → Cells α
  | [], a, v => [(a, v)]
  | (k, w) :: m, a, v =>
    if a < k then (a, v) :: (k, w) :: m
    else if a = k then (a, v) :: m
    else (k, w) :: cellsPut m a v

/-- List nothing at a key. -/
def cellsDel {α : Type} : Cells α → Nat → Cells α
  | [], _ => []
  | (k, w) :: m, a => if a = k then m else (k, w) :: cellsDel m a

/-- The keys rise strictly, each above `lo`. -/
def cellsRiseAbove {α : Type} : Nat → Cells α → Bool
  | _, [] => true
  | lo, (k, _) :: m => decide (lo < k) && cellsRiseAbove k m

/-- The keys rise strictly. -/
def cellsRise {α : Type} : Cells α → Bool
  | [] => true
  | (k, _) :: m => cellsRiseAbove k m

/-- Read a table whose unlisted keys read as `d`. -/
def readOr {α : Type} (d : α) (m : Cells α) (a : Nat) : α := (cellsFind m a).getD d

/-- Write a table whose unlisted keys read as `d`: writing `d` removes the entry. -/
def writeOr {α : Type} [DecidableEq α] (d : α) (m : Cells α) (a : Nat) (v : α) : Cells α :=
  if v = d then cellsDel m a else cellsPut m a v

/-- The canonical form of such a table: rising keys below `bound`, and no entry equal to `d`. -/
def cellsCanonical {α : Type} [DecidableEq α] (d : α) (bound : Nat) (m : Cells α) : Bool :=
  cellsRise m && m.all fun c => decide (c.1 < bound) && decide (c.2 ≠ d)

/-! ### The byte buffer -/

/-- The written value of a byte; an unlisted address has none, which is what it reads as here (log entry 4). -/
def memFind (m : Memory) (a : Nat) : Option Byte := cellsFind m a

/-- Store one byte (R63). No byte equals the absent value of an unlisted address, so a store never removes an entry. -/
def memPut (m : Memory) (a : Nat) (v : Byte) : Memory := cellsPut m a v

/-- The canonical form of the buffer: rising addresses, all inside the address space (R60). -/
def Memory.wf (m : Memory) : Bool := cellsRise m && m.all fun c => decide (c.1 < Config.bufSize)

/-- `BUF[a]`: the byte written last, or the free value of a byte nothing has written since reset (R41, R338). -/
def bufByte (s : State) (a : Nat) : Byte := (memFind s.buf a).getD (Config.unwrittenByte s.epoch a)

/-- `MemRead(a, n)` (R62), its bound already checked. -/
def memRead (s : State) (a n : Nat) : List Byte := (List.range n).map fun i => bufByte s (a + i)

/-- `MemWrite(a, bytes)` (R63), its bound already checked. -/
def memWrite (m : Memory) (a : Nat) : List Byte → Memory
  | [] => m
  | v :: vs => memWrite (memPut m a v) (a + 1) vs

/-! ### The end of a command, and taking a fault -/

/-- How a command's own pseudocode ends (00_scope.md R13): `return (r0, r1)`, or `raise` of a fault with the state changes
its rule allows. -/
inductive Done where
  /-- `return (r0, r1)` -/
  | ret (s : State) (r0 r1 : Word)
  /-- `raise` -/
  | raised (s : State) (c : FaultCode)

/-- Give a response (R83): every command yields exactly one. -/
def respond (s : State) (r : Response) : State := { s with responses := s.responses ++ [r] }

/-- TAKING A FAULT (R310): `LAST_FAULT` is the code, `FAULT_SEEN` is set, FatalConfiguration sets `FATAL`, the response is
`(code, 0, 0)`, and nothing else changes. -/
def takeFault (c : FaultCode) (s : State) : State :=
  respond { s with status := s.status.record c } ⟨c, 0#32, 0#32⟩

/-- The successful end of a command (R310): `LAST_FAULT` is 0 and the response is `(0, r0, r1)`. -/
def succeed (r0 r1 : Word) (s : State) : State :=
  respond { s with status := s.status.record .ok } ⟨.ok, r0, r1⟩

/-- The return from faults (R312): there is nothing to restore; `STCLR` clears the sticky bits. -/
def clearFaults (s : State) : State := { s with status := s.status.clearSticky }

/-- End a command. -/
def settle : Done → State
  | .ret s r0 r1 => succeed r0 r1 s
  | .raised s c => takeFault c s

/-- Every command but `STGET` (R110): Halted first (R307), then the command's own pseudocode. That the record is legal is
the decoder's check. -/
def command (body : State → Done) (s : State) : Host.Outcome State Fault Refusal :=
  .next (if s.status.fatal then takeFault .halted s else settle (body s))

/-- The answer to an illegal record (R110, R306): Halted while the block is halted, else IllegalCommand. -/
def illegalRecord (s : State) : State :=
  if s.status.fatal then takeFault .halted s else takeFault .illegalCommand s

/-- The reset input (R330, R331): every register at its reset value, the bytes of `BUF` free anew (R338). What the host has
still to send and the responses it has had are the host's. -/
def resetInput (s : State) : State :=
  { State.reset with inbox := s.inbox, responses := s.responses, epoch := s.epoch + 1 }

/-! ### The buffer side of the codec -/

/-- Move the cursor (R37); the caller has checked that the position is at most `BUF_SIZE`. -/
def setCur (s : State) (a : Nat) : State := { s with cur := BitVec.ofNat 12 a }

/-- The end of `DES` once the size is known (R117): `n` bytes must fit at `CUR`; the banks change, the cursor advances by
`n`, and `n` is the answer. -/
def finishLoad (n : Nat) (banks : Banks) (s : State) : Done :=
  if Config.bufSize < s.cur.toNat + n then .raised s .bufferOverrun
  else .ret (setCur { s with banks := banks } (s.cur.toNat + n)) (BitVec.ofNat 32 n) 0#32

/-- The shared body of `DES` (R117): the mandatory part must fit, then the size found in it, then the bank is loaded. -/
def loadFromBuffer (b : Bank) (s : State) : Done :=
  if Config.bufSize < s.cur.toNat + b.prefixBytes then .raised s .bufferOverrun
  else
    let n := sizeFromPrefix b (memRead s s.cur.toNat b.prefixBytes)
    finishLoad n (s.banks.load b (memRead s s.cur.toNat n)) s

/-- The shared body of `SER` (R116): an inconsistent `MUX` bank is InvalidArgument, then the bytes must fit at `CUR`. -/
def storeToBuffer (b : Bank) (s : State) : Done :=
  if b = .mux ∧ s.banks.mux.fits = false then .raised s .invalidArgument
  else
    let n := s.banks.size b
    if Config.bufSize < s.cur.toNat + n then .raised s .bufferOverrun
    else .ret (setCur { s with buf := memWrite s.buf s.cur.toNat (s.banks.enc b) } (s.cur.toNat + n))
      (BitVec.ofNat 32 n) 0#32

/-- A host that has written a structure to `BUF` at the cursor and asks for it (R68, R117): the bytes stand at `CUR`, moved to
0 where they would pass the end, and `DES` of the structure's type is the next record at the port (log entry 2). -/
def fetchStructure (b : Bank) (bytes : List Byte) (s : State) : State :=
  let at0 := if Config.bufSize < s.cur.toNat + bytes.length then 0 else s.cur.toNat
  { setCur s at0 with
    buf := memWrite s.buf at0 bytes
    inbox := .command (packRecord 0x06#8 (Instr.des b).operands) :: s.inbox }

end Sys2Proof.Machine
end

