-- ==== Sys2Proof/Machine/Operands.lean ====
section
/-! DEFINITION. Operand forms of the channel and spectrum commands: band numbers and the band lookup (45_channel_table.md
R243), scaling factors (R246), channel numbers (R248), slot and subslot (R255), subslot status codes (10_state.md R43), and
the tables they select. -/

namespace Sys2Proof.Machine

/-- The supported band a 32-bit operand names, compared as an integer (R243). -/
def bandOf (w : Word) : Option Band :=
  match w.toNat with
  | 1 => some .b1
  | 2 => some .b2
  | 20 => some .b20
  | 21 => some .b21
  | _ => none

/-- The number of a band (R8). -/
def bandWord : Band → Word
  | .b1 => 1#32
  | .b2 => 2#32
  | .b20 => 20#32
  | .b21 => 21#32

/-- The supported bands in ascending order (R249, R250). -/
def bandsAscending : List Band := [.b1, .b2, .b20, .b21]

/-- The scaling factor a 32-bit operand names, if it is one of 1, 2, 4, 8 (R246). -/
def muOf (w : Word) : Option Mu :=
  match w.toNat with
  | 1 => some .mu1
  | 2 => some .mu2
  | 4 => some .mu4
  | 8 => some .mu8
  | _ => none

/-- The number of a scaling factor. -/
def Mu.toNat : Mu → Nat
  | .mu1 => 1
  | .mu2 => 2
  | .mu4 => 4
  | .mu8 => 8

/-- Subslots per slot, `2·mu` (R8 `SUBSLOTS`). -/
def Mu.subslots (m : Mu) : Nat := 2 * m.toNat

/-- Subslot duration in ticks, `SLOT_TICKS div (2·mu)` (R43, R245). -/
def Mu.duration (m : Mu) : Nat := Config.slotTicks / m.subslots

/-- The record `CHINIT` writes to every subslot: FREE, RSSI 0, the computed duration (R245). -/
def freshRec (m : Mu) : SubRec := ⟨.free, 0#16, BitVec.ofNat 16 m.duration⟩

/-- The code of a subslot status (R43). -/
def SlotStatus.code : SlotStatus → BitVec 2
  | .free => 0#2
  | .possible => 1#2
  | .busy => 2#2

/-- The subslot status of a code; 3 is none (R43, R253). -/
def slotStatusOf (c : BitVec 2) : Option SlotStatus :=
  match c.toNat with
  | 0 => some .free
  | 1 => some .possible
  | 2 => some .busy
  | _ => none

/-- The key of a subslot record: storage is 24 slots of 16 subslots for each channel (R42). -/
def subKey (k slot subslot : Nat) : Nat := (k * Config.slotsPerFrame + slot) * 16 + subslot

/-- Read a subslot record (R42). -/
def ChanTable.sub (t : ChanTable) (k slot subslot : Nat) : SubRec := readOr (freshRec t.mu) t.subs (subKey k slot subslot)

/-- Write a subslot record (R42). -/
def ChanTable.setSub (t : ChanTable) (k slot subslot : Nat) (r : SubRec) : ChanTable :=
  { t with subs := writeOr (freshRec t.mu) t.subs (subKey k slot subslot) r }

/-- Read an accumulator (R44). -/
def SpecModel.acc (m : SpecModel) (k : Nat) : BitVec 64 := readOr 0#64 m.pwr k

/-- Write an accumulator (R44). -/
def SpecModel.setAcc (m : SpecModel) (k : Nat) (v : BitVec 64) : SpecModel := { m with pwr := writeOr 0#64 m.pwr k v }

/-- The spectral model just created: every accumulator 0 (R281). -/
def SpecModel.created : SpecModel := ⟨[]⟩

/-- `band_params` (R243): the parameters of a supported band, or FatalConfiguration. -/
def withBandParams (band : Word) (s : State) (f : Band → BandParams → Done) : Done :=
  match bandOf band with
  | none => .raised s .fatalConfiguration
  | some b => f b (Config.bandTable b)

/-- The channel number is in the band: `nStart <= n <= nEnd` (R248). -/
def BandParams.contains (p : BandParams) (n : Nat) : Bool := decide (p.nStart.toNat ≤ n) && decide (n ≤ p.nEnd.toNat)

/-- Go on with the channel's index `n − nStart`, or InvalidArgument (R248, R251). -/
def withChannel (p : BandParams) (n : Word) (s : State) (f : Nat → Done) : Done :=
  if BandParams.contains p n.toNat then f (n.toNat - p.nStart.toNat) else .raised s .invalidArgument

/-- Centre frequency of the channel with index `k`, kHz (R240, R248). -/
def BandParams.freq (p : BandParams) (k : Nat) : Nat := p.start.toNat + k * p.step.toNat

/-- The channel table of an initialised band, or NotInitialized; no parameters are looked up (R243, R255). -/
def withChanTable (band : Word) (s : State) (f : Band → ChanTable → Done) : Done :=
  match bandOf band with
  | none => .raised s .notInitialized
  | some b =>
    match s.chan.get b with
    | none => .raised s .notInitialized
    | some t => f b t

/-- `chan_index` (R255): band, channel number, slot, subslot, in this order. -/
def withSubslot (band n : Word) (slot subslot : Byte) (s : State) (f : Band → ChanTable → Nat → Done) : Done :=
  withChanTable band s fun b t =>
    withChannel (Config.bandTable b) n s fun k =>
      if Config.slotsPerFrame ≤ slot.toNat then .raised s .invalidArgument
      else if t.mu.subslots ≤ subslot.toNat then .raised s .invalidArgument
      else f b t k

end Sys2Proof.Machine
end

