-- ==== Sys2Proof/Machine/Channel.lean ====
section
/-! DEFINITION. The channel-table group: `CHINIT`, `CHVALID`, `BANDPARM`, `CFREQ`, `CHFREQ`, `CHID`, `BIN`, `SSGET`, `SSSET`,
`TLOC` (45_channel_table.md). -/

namespace Sys2Proof.Machine

/-- Number of channels of a band, as a response value (R245, R247). -/
def BandParams.countWord (p : BandParams) : Word := BitVec.ofNat 32 (p.lastIndex + 1)

/-- The channel list just built: every subslot FREE, RSSI 0, the duration of the scaling factor (R245). -/
def ChanTable.built (m : Mu) : ChanTable := ⟨m, []⟩

/-- The scaling factor of `CHINIT`: a value outside 1, 2, 4, 8 falls back to 1 and sets `WARN` (R246). -/
def scaleOrWarn (mu : Word) (s : State) : Mu × State :=
  match muOf mu with
  | some m => (m, s)
  | none => (.mu1, { s with status := s.status.setWarn })

/-- `CHINIT band, mu` (R245): the scaling factor first, then the band lookup; the spectral model is not touched (R259). -/
def execChinit (band mu : Word) (s : State) : Host.Outcome State Fault Refusal :=
  command (fun s =>
    let m := (scaleOrWarn mu s).1
    let s := (scaleOrWarn mu s).2
    withBandParams band s fun b p =>
      .ret { s with chan := s.chan.set (some (ChanTable.built m)) b } (BandParams.countWord p)
        (BitVec.ofNat 32 m.subslots)) s

/-- `CHVALID band` (R247): never a fault of its own. -/
def execChvalid (band : Word) (s : State) : Host.Outcome State Fault Refusal :=
  command (fun s =>
    match bandOf band with
    | none => .ret s 0#32 0#32
    | some b =>
      match s.chan.get b with
      | none => .ret s 0#32 0#32
      | some _ => .ret s (BandParams.countWord (Config.bandTable b)) ((Config.bandTable b).nStart.setWidth 32)) s

/-- The parameter a `BANDPARM` selector names (R244). -/
def BandParams.param (p : BandParams) : BandSel → Word
  | .start => p.start
  | .stop => p.stop
  | .step => p.step
  | .nStart => p.nStart.setWidth 32
  | .nEnd => p.nEnd.setWidth 32

/-- `BANDPARM band, sel` (R244). -/
def execBandparm (band : Word) (sel : BandSel) (s : State) : Host.Outcome State Fault Refusal :=
  command (fun s => withBandParams band s fun _ p => .ret s (BandParams.param p sel) 0#32) s

/-- `CFREQ band, n` (R248). -/
def execCfreq (band n : Word) (s : State) : Host.Outcome State Fault Refusal :=
  command (fun s =>
    withBandParams band s fun _ p => withChannel p n s fun k => .ret s (BitVec.ofNat 32 (BandParams.freq p k)) 0#32) s

/-- The first of some bands that contains a channel number (R249). -/
def bandOfChannel (n : Nat) : List Band → Option Band
  | [] => none
  | b :: bs => if BandParams.contains (Config.bandTable b) n then some b else bandOfChannel n bs

/-- `CHFREQ n` (R249). -/
def execChfreq (n : Word) (s : State) : Host.Outcome State Fault Refusal :=
  command (fun s =>
    match bandOfChannel n.toNat bandsAscending with
    | none => .raised s .invalidArgument
    | some b =>
      .ret s
        (BitVec.ofNat 32 (BandParams.freq (Config.bandTable b) (n.toNat - (Config.bandTable b).nStart.toNat)))
        (bandWord b)) s

/-- The index of the channel of a band whose centre frequency is `f` kHz, if there is one (R250). -/
def BandParams.indexOfFreq (p : BandParams) (f : Nat) : Option Nat :=
  if p.start.toNat ≤ f ∧ (f - p.start.toNat) % p.step.toNat = 0 ∧ (f - p.start.toNat) / p.step.toNat ≤ p.lastIndex
  then some ((f - p.start.toNat) / p.step.toNat)
  else none

/-- The first of some bands with a channel at `f` kHz, and the channel's index (R250). -/
def channelOfFreq (f : Nat) : List Band → Option (Band × Nat)
  | [] => none
  | b :: bs =>
    match BandParams.indexOfFreq (Config.bandTable b) f with
    | some k => some (b, k)
    | none => channelOfFreq f bs

/-- `CHID f` (R250). -/
def execChid (f : Word) (s : State) : Host.Outcome State Fault Refusal :=
  command (fun s =>
    match channelOfFreq f.toNat bandsAscending with
    | none => .raised s .invalidArgument
    | some (b, k) => .ret s (BitVec.ofNat 32 ((Config.bandTable b).nStart.toNat + k)) (bandWord b)) s

/-- `BIN band, n` (R251). -/
def execBin (band n : Word) (s : State) : Host.Outcome State Fault Refusal :=
  command (fun s => withBandParams band s fun _ p => withChannel p n s fun k => .ret s (BitVec.ofNat 32 k) 0#32) s

/-- The value of a subslot field: status and duration zero-extended, rssi sign-extended (R252). -/
def SubRec.field (r : SubRec) : SubslotSel → Word
  | .status => r.status.code.setWidth 32
  | .rssi => r.rssi.signExtend 32
  | .duration => r.duration.setWidth 32

/-- `SSGET band, n, slot, subslot, sel` (R252). -/
def execSsget (band n : Word) (slot subslot : Byte) (sel : SubslotSel) (s : State) :
    Host.Outcome State Fault Refusal :=
  command (fun s =>
    withSubslot band n slot subslot s fun _ t k => .ret s (SubRec.field (t.sub k slot.toNat subslot.toNat) sel) 0#32) s

/-- `SSSET band, n, slot, subslot, status, rssi` (R253): the duration stays as it is. -/
def execSsset (band n : Word) (slot subslot : Byte) (status : BitVec 2) (rssi : BitVec 16) (s : State) :
    Host.Outcome State Fault Refusal :=
  command (fun s =>
    withSubslot band n slot subslot s fun b t k =>
      match slotStatusOf status with
      | none => .raised s .invalidArgument
      | some st =>
        .ret { s with
          chan := s.chan.set
            (some (t.setSub k slot.toNat subslot.toNat
              { t.sub k slot.toNat subslot.toNat with status := st, rssi := rssi })) b } 0#32 0#32) s

/-- The coordinate of tick `t` that a `TLOC` selector names, with subslots of `d` ticks (R254). -/
def timeCoordinate (t d : Nat) : TimeSel → Word
  | .frame => BitVec.ofNat 32 (t / Config.frameTicks)
  | .slot => BitVec.ofNat 32 (t % Config.frameTicks / Config.slotTicks)
  | .subslot => BitVec.ofNat 32 (t % Config.slotTicks / d)
  | .offset => BitVec.ofNat 32 (t % d)
  | .sfn => BitVec.ofNat 32 (t / Config.frameTicks % 256)

/-- `TLOC band, sel, t` (R254). -/
def execTloc (band : Word) (sel : TimeSel) (t : DWord) (s : State) : Host.Outcome State Fault Refusal :=
  command (fun s => withChanTable band s fun _ c => .ret s (timeCoordinate t.toNat c.mu.duration sel) 0#32) s

end Sys2Proof.Machine
end

