-- ==== Sys2Proof/Machine/Codec.lean ====
section
/-! DEFINITION. The codec group and the status group: `NOP`, `RST`, `SET`, `GET`, `SIZE`, `SER`, `DES`, `DISP`, `SEEK`, `TELL`,
`BUFWR`, `BUFRD`, `STCLR`, `STGET` (40_codec_common.md). -/

namespace Sys2Proof.Machine

/-- `NOP` (R127). -/
def execNop (s : State) : Host.Outcome State Fault Refusal := command (fun s => .ret s 0#32 0#32) s

/-- `RST bank` (R111). -/
def execRst (b : Bank) (s : State) : Host.Outcome State Fault Refusal :=
  command (fun s => .ret { s with banks := s.banks.clear b } 0#32 0#32) s

/-- `SET bank.field[idx], value` (R112). -/
def execSet (r : Reg) (value : Word) (s : State) : Host.Outcome State Fault Refusal :=
  command (fun s =>
    if r.legal value then .ret { s with banks := s.banks.write value r } 0#32 0#32
    else .raised s .invalidArgument) s

/-- `GET bank.field[idx]` (R114). -/
def execGet (r : Reg) (s : State) : Host.Outcome State Fault Refusal :=
  command (fun s => .ret s (s.banks.read r) 0#32) s

/-- `SIZE bank` (R115). -/
def execSize (b : Bank) (s : State) : Host.Outcome State Fault Refusal :=
  command (fun s => .ret s (BitVec.ofNat 32 (s.banks.size b)) 0#32) s

/-- `SER bank` (R116). -/
def execSer (b : Bank) (s : State) : Host.Outcome State Fault Refusal := command (storeToBuffer b) s

/-- `DES bank` (R117). -/
def execDes (b : Bank) (s : State) : Host.Outcome State Fault Refusal := command (loadFromBuffer b) s

/-- `NONE`, the bank answer of `DISP` for a code without a decoder (R85). -/
def noBank : Word := 0xFF#32

/-- The length answer of `DISP` where the header carries no length (R122). -/
def noLength : Word := 0xFFFFFFFF#32

/-- The bank that follows a MAC Header Type (R122): `BH` after BEACON, `UH` after UNICAST, else `NONE`. -/
def headerBank (headerType : BitVec 4) : Word :=
  if headerType = 1#4 then Bank.word .bh
  else if headerType = 2#4 then Bank.word .uh
  else noBank

/-- `ie_bank` (41_mac_headers.md R160). -/
def ieBank (macExt : BitVec 2) (ieType : BitVec 6) : Word :=
  if macExt = 3#2 then noBank
  else if ieType = Config.ieNb then Bank.word .nb
  else if ieType = Config.ieCb then Bank.word .cb
  else if ieType = Config.ieAreq then Bank.word .areq
  else if ieType = Config.ieArsp then Bank.word .arsp
  else if ieType = Config.ieRar then Bank.word .rar
  else if ieType = Config.ieRdc then Bank.word .rdc
  else if ieType = Config.ieAci then Bank.word .aci
  else noBank

/-- `DISP bank` (R122). A bank other than `MHT` and `MUX` is an illegal command (R89, R306), which the decoder rejects. -/
def execDisp (b : Bank) (s : State) : Host.Outcome State Fault Refusal :=
  command (fun s =>
    if b = .mht then .ret s (headerBank s.banks.mht.headerType) noLength
    else if b = .mux then
      .ret s (ieBank s.banks.mux.macExt s.banks.mux.ieType)
        (if s.banks.mux.macExt = 0#2 then noLength else s.banks.mux.length.setWidth 32)
    else .raised s .illegalCommand) s

/-- `SEEK addr` (R123). -/
def execSeek (addr : Word) (s : State) : Host.Outcome State Fault Refusal :=
  command (fun s =>
    if Config.bufSize < addr.toNat then .raised s .bufferOverrun
    else .ret (setCur s addr.toNat) 0#32 0#32) s

/-- `TELL` (R124). -/
def execTell (s : State) : Host.Outcome State Fault Refusal := command (fun s => .ret s (s.cur.setWidth 32) 0#32) s

/-- `BUFWR addr, byte` (R125): the address is checked before the byte. -/
def execBufwr (addr value : Word) (s : State) : Host.Outcome State Fault Refusal :=
  command (fun s =>
    if Config.bufSize ≤ addr.toNat then .raised s .bufferOverrun
    else if 255 < value.toNat then .raised s .invalidArgument
    else .ret { s with buf := memWrite s.buf addr.toNat [value.setWidth 8] } 0#32 0#32) s

/-- `BUFRD addr` (R126). -/
def execBufrd (addr : Word) (s : State) : Host.Outcome State Fault Refusal :=
  command (fun s =>
    if Config.bufSize ≤ addr.toNat then .raised s .bufferOverrun
    else .ret s ((bufByte s addr.toNat).setWidth 32) 0#32) s

/-- `STCLR` (R128, R312). -/
def execStclr (s : State) : Host.Outcome State Fault Refusal := command (fun s => .ret (clearFaults s) 0#32 0#32) s

/-- `STGET` (R129): runs while halted too, and leaves `STATUS` as it is. -/
def execStget (s : State) : Host.Outcome State Fault Refusal :=
  .next (respond s ⟨.ok, s.status.word.setWidth 32, 0#32⟩)

end Sys2Proof.Machine
end

