-- ==== Sys2Proof/Machine/Spectrum.lean ====
section
/-! DEFINITION. The spectrum group: `PWADD`, `PWSUB`, `RSSI`, `W2DBM` (46_spectrum_power.md). -/

namespace Sys2Proof.Machine

/-- The largest `e` at most `bound` with `10^e <= x`; 0 if there is none. -/
def largestPowerOfTen (x : Nat) : Nat → Nat
  | 0 => 0
  | e + 1 => if 10 ^ (e + 1) ≤ x then e + 1 else largestPowerOfTen x e

/-- `w2dbm` (R285): the floor for zero and negative power, else `e − 150` with `e` the largest natural number such that
`10^e <= P^10`. The greatest `P` is `2^63 − 1`, whose `e` is 189, so the search starts at 190. -/
def w2dbm (p : Int) : Int :=
  if p ≤ 0 then Config.floorDbm else (largestPowerOfTen (p.toNat ^ 10) 190 : Int) - 150

/-- The accumulator of a channel, 0 while the band has no spectral model (R282, R283). -/
def accumulator (s : State) (b : Band) (k : Nat) : Int :=
  match s.spec.get b with
  | none => 0
  | some m => (m.acc k).toInt

/-- `spec_create` (R281) and the write of one accumulator. -/
def storeAccumulator (s : State) (b : Band) (k : Nat) (a : Int) : State :=
  { s with spec := s.spec.set (some (((s.spec.get b).getD SpecModel.created).setAcc k (BitVec.ofInt 64 a))) b }

/-- The shared body of `PWADD` and `PWSUB` (R282, R283): band, channel, power below `2^63`, then the exact result must fit the
signed 64-bit accumulator; only then is anything written. -/
def updatePower (band n : Word) (p : DWord) (f : Int → Int → Int) (s : State) : Done :=
  withBandParams band s fun b params =>
    withChannel params n s fun k =>
      if 2 ^ 63 ≤ p.toNat then .raised s .invalidArgument
      else
        let a := f (accumulator s b k) (p.toNat : Int)
        if a < -(2 ^ 63) ∨ 2 ^ 63 - 1 < a then .raised s .accumulatorOverflow
        else .ret (storeAccumulator s b k a) (highWord (BitVec.ofInt 64 a)) (lowWord (BitVec.ofInt 64 a))

/-- `PWADD band, n, p` (R282). -/
def execPwadd (band n : Word) (p : DWord) (s : State) : Host.Outcome State Fault Refusal :=
  command (updatePower band n p fun acc q => acc + q) s

/-- `PWSUB band, n, p` (R283). -/
def execPwsub (band n : Word) (p : DWord) (s : State) : Host.Outcome State Fault Refusal :=
  command (updatePower band n p fun acc q => acc - q) s

/-- A dBm value sign-extended to 32 bits (R88). -/
def dbmWord (v : Int) : Word := BitVec.ofInt 32 v

/-- `RSSI band, n` (R286): the floor while the band has no spectral model, which is not created. -/
def execRssi (band n : Word) (s : State) : Host.Outcome State Fault Refusal :=
  command (fun s =>
    withBandParams band s fun b p =>
      withChannel p n s fun k =>
        match s.spec.get b with
        | none => .ret s (dbmWord Config.floorDbm) 0#32
        | some m => .ret s (dbmWord (w2dbm (m.acc k).toInt)) 0#32) s

/-- `W2DBM P` (R287). -/
def execW2dbm (p : DWord) (s : State) : Host.Outcome State Fault Refusal :=
  command (fun s => .ret s (dbmWord (w2dbm p.toInt)) 0#32) s

end Sys2Proof.Machine
end

