-- ==== Sys2Proof/Machine/Wire.lean ====
section
/-! DEFINITION. The wire rows (files 41 to 44). A wire row is not a command; it is a structure that `DES` reads at `CUR`, so its
meaning is the rest of that `DES` once the structure is read: it must fit in the buffer, its bank is loaded, the cursor
advances by its size, and the size is the answer (40_codec_common.md R117; log entry 2). -/

namespace Sys2Proof.Machine

/-- Take in a structure that stands at `CUR` (R117): `set` is the load of its bank. -/
def receive (b : Bank) (set : Banks → Banks) (s : State) : Host.Outcome State Fault Refusal :=
  command (fun s => finishLoad ((set s.banks).size b) (set s.banks) s) s

/-- Wire row `MHT` (R140, R143). -/
def execMht (w : MhtBank) (s : State) : Host.Outcome State Fault Refusal := receive .mht (fun B => { B with mht := w }) s

/-- Wire row `BH` (R145, R148). -/
def execBh (w : BhBank) (s : State) : Host.Outcome State Fault Refusal := receive .bh (fun B => { B with bh := w }) s

/-- Wire row `UH` (R150, R153). -/
def execUh (w : UhBank) (s : State) : Host.Outcome State Fault Refusal := receive .uh (fun B => { B with uh := w }) s

/-- Wire row `MUX.form0` (R155, R159). -/
def execMuxForm0 (ieType : BitVec 6) (s : State) : Host.Outcome State Fault Refusal :=
  receive .mux (fun B => { B with mux := muxBankForm0 ieType }) s

/-- Wire row `MUX.form1` (R155, R159). -/
def execMuxForm1 (ieType : BitVec 6) (length : BitVec 8) (s : State) : Host.Outcome State Fault Refusal :=
  receive .mux (fun B => { B with mux := muxBankForm1 ieType length }) s

/-- Wire row `MUX.form2` (R155, R159). -/
def execMuxForm2 (ieType : BitVec 6) (length : BitVec 16) (s : State) : Host.Outcome State Fault Refusal :=
  receive .mux (fun B => { B with mux := muxBankForm2 ieType length }) s

/-- Wire row `MUX.form3` (R155, R159). -/
def execMuxForm3 (ieType : BitVec 5) (length : BitVec 1) (s : State) : Host.Outcome State Fault Refusal :=
  receive .mux (fun B => { B with mux := muxBankForm3 ieType length }) s

/-- Wire row `NB` (R170, R173); what no flag carries is 0 (R120). -/
def execNb (w : NbBank) (s : State) : Host.Outcome State Fault Refusal :=
  receive .nb (fun B => { B with nb := w.visible }) s

/-- Wire row `CB` (R180, R183). -/
def execCb (w : CbBank) (s : State) : Host.Outcome State Fault Refusal :=
  receive .cb (fun B => { B with cb := w.visible }) s

/-- Wire row `AREQ` (R190, R194). -/
def execAreq (w : AreqBank) (s : State) : Host.Outcome State Fault Refusal :=
  receive .areq (fun B => { B with areq := w.visible }) s

/-- Wire row `ARSP.reject` (R200, R203): the row's `ackNack` is 0. -/
def execArspReject (w : ArspBank) (s : State) : Host.Outcome State Fault Refusal :=
  receive .arsp (fun B => { B with arsp := ArspBank.visible { w with ackNack := 0#1 } }) s

/-- Wire row `ARSP.accept` (R200, R203): the row's `ackNack` is 1. -/
def execArspAccept (w : ArspBank) (s : State) : Host.Outcome State Fault Refusal :=
  receive .arsp (fun B => { B with arsp := ArspBank.visible { w with ackNack := 1#1 } }) s

/-- Wire row `RAR` (R210, R213). -/
def execRar (w : RarBank) (s : State) : Host.Outcome State Fault Refusal :=
  receive .rar (fun B => { B with rar := w.visible }) s

/-- Wire row `RDC` (R220, R224). -/
def execRdc (w : RdcBank) (s : State) : Host.Outcome State Fault Refusal := receive .rdc (fun B => { B with rdc := w }) s

/-- Wire row `ACI` (R225, R228). -/
def execAci (w : AciBank) (s : State) : Host.Outcome State Fault Refusal := receive .aci (fun B => { B with aci := w }) s

end Sys2Proof.Machine
end

