-- ==== Sys2Proof/Machine/Dispatch.lean ====
section
/-! DEFINITION. The dispatch of every instruction to its meaning. -/

namespace Sys2Proof.Machine

def exec (i : Instr) (s : State) : Host.Outcome State Fault Refusal :=
  match i with
  | .nop => Sys2Proof.Machine.execNop s
  | .rst b => Sys2Proof.Machine.execRst b s
  | .set r value => Sys2Proof.Machine.execSet r value s
  | .get r => Sys2Proof.Machine.execGet r s
  | .size b => Sys2Proof.Machine.execSize b s
  | .ser b => Sys2Proof.Machine.execSer b s
  | .des b => Sys2Proof.Machine.execDes b s
  | .disp b => Sys2Proof.Machine.execDisp b s
  | .seek addr => Sys2Proof.Machine.execSeek addr s
  | .tell => Sys2Proof.Machine.execTell s
  | .bufwr addr value => Sys2Proof.Machine.execBufwr addr value s
  | .bufrd addr => Sys2Proof.Machine.execBufrd addr s
  | .chinit band mu => Sys2Proof.Machine.execChinit band mu s
  | .chvalid band => Sys2Proof.Machine.execChvalid band s
  | .bandparm band sel => Sys2Proof.Machine.execBandparm band sel s
  | .cfreq band n => Sys2Proof.Machine.execCfreq band n s
  | .chfreq n => Sys2Proof.Machine.execChfreq n s
  | .chid f => Sys2Proof.Machine.execChid f s
  | .bin band n => Sys2Proof.Machine.execBin band n s
  | .ssget band n slot subslot sel => Sys2Proof.Machine.execSsget band n slot subslot sel s
  | .ssset band n slot subslot status rssi => Sys2Proof.Machine.execSsset band n slot subslot status rssi s
  | .tloc band sel t => Sys2Proof.Machine.execTloc band sel t s
  | .pwadd band n p => Sys2Proof.Machine.execPwadd band n p s
  | .pwsub band n p => Sys2Proof.Machine.execPwsub band n p s
  | .rssi band n => Sys2Proof.Machine.execRssi band n s
  | .w2dbm p => Sys2Proof.Machine.execW2dbm p s
  | .stclr => Sys2Proof.Machine.execStclr s
  | .stget => Sys2Proof.Machine.execStget s
  | .mht w => Sys2Proof.Machine.execMht w s
  | .bh w => Sys2Proof.Machine.execBh w s
  | .uh w => Sys2Proof.Machine.execUh w s
  | .muxForm0 ieType => Sys2Proof.Machine.execMuxForm0 ieType s
  | .muxForm1 ieType length => Sys2Proof.Machine.execMuxForm1 ieType length s
  | .muxForm2 ieType length => Sys2Proof.Machine.execMuxForm2 ieType length s
  | .muxForm3 ieType length => Sys2Proof.Machine.execMuxForm3 ieType length s
  | .nb w => Sys2Proof.Machine.execNb w s
  | .cb w => Sys2Proof.Machine.execCb w s
  | .areq w => Sys2Proof.Machine.execAreq w s
  | .arspReject w => Sys2Proof.Machine.execArspReject w s
  | .arspAccept w => Sys2Proof.Machine.execArspAccept w s
  | .rar w => Sys2Proof.Machine.execRar w s
  | .rdc w => Sys2Proof.Machine.execRdc w s
  | .aci w => Sys2Proof.Machine.execAci w s

end Sys2Proof.Machine
end

