-- ==== Sys2Proof/Machine/Step.lean ====
section
/-! DEFINITION. One step of the block: it takes the next event of the host, a command record or the reset input, and runs it to
completion (20_memory.md R70, 70_reset_and_hazards.md R330, R340). -/

namespace Sys2Proof.Machine

/-- Run a command record (40_codec_common.md R110): a legal one runs, an illegal one is answered so. -/
def runRecord (r : Record) (s : State) : Host.Outcome State Fault Refusal :=
  match decodeRecord r with
  | .ok i => exec i s
  | .illegal _ => .next (illegalRecord s)

/-- One step. With nothing from the host the block holds its state (60_exceptions.md R322). -/
def step (s : State) : Host.Outcome State Fault Refusal :=
  match s.inbox with
  | [] => .next s
  | .command r :: rest => runRecord r { s with inbox := rest }
  | .reset :: rest => .next (resetInput { s with inbox := rest })

/-- Place the instruction of an opcode-table row where the next step takes it (log entry 3). A command is the next record at
the port; a wire structure stands in `BUF` at `CUR`, and the record at the port is the `DES` that reads it (log entry 2). -/
def State.withFetchWord (s : State) (nbits w : Nat) : State :=
  if tableWordIsRecord nbits then { s with inbox := .command (tableRecord w) :: s.inbox }
  else
    match tableWireBank nbits w with
    | none => s
    | some b => fetchStructure b (tableWireBytes w) s

end Sys2Proof.Machine
end

