-- ==== Sys2Proof/Laws/Cells.lean ====
section
/-! SUPPORT. Cells at rising keys: reading after writing, and the canonical form every write keeps. -/

namespace Sys2Proof.Machine

variable {α : Type}

@[simp] theorem cellsFind_nil (a : Nat) : cellsFind ([] : Cells α) a = none := rfl

theorem cellsFind_put (m : Cells α) (a b : Nat) (v : α) :
    cellsFind (cellsPut m a v) b = if b = a then some v else cellsFind m b := by
  induction m with
  | nil => simp [cellsPut, cellsFind]
  | cons c m ih =>
    obtain ⟨k, w⟩ := c
    simp only [cellsPut]
    split
    · simp [cellsFind]
    · split
      · simp only [cellsFind]; grind
      · simp only [cellsFind, ih]; grind

/-- Keys above `lo` only. -/
theorem cellsFind_rise_lt (m : Cells α) (lo a : Nat) (h : cellsRiseAbove lo m = true) (ha : a ≤ lo) :
    cellsFind m a = none := by
  induction m generalizing lo with
  | nil => rfl
  | cons c m ih =>
    obtain ⟨k, w⟩ := c
    simp only [cellsRiseAbove, Bool.and_eq_true, decide_eq_true_eq] at h
    simp only [cellsFind]
    rw [if_neg (by omega)]
    exact ih k h.2 (by omega)

theorem cellsRise_of_above (m : Cells α) (lo : Nat) (h : cellsRiseAbove lo m = true) : cellsRise m = true := by
  cases m with
  | nil => rfl
  | cons c m =>
    obtain ⟨k, w⟩ := c
    simp only [cellsRiseAbove, Bool.and_eq_true] at h
    simpa [cellsRise] using h.2

theorem cellsRiseAbove_mono (m : Cells α) (lo lo' : Nat) (h : cellsRiseAbove lo m = true) (hl : lo' ≤ lo) :
    cellsRiseAbove lo' m = true := by
  cases m with
  | nil => rfl
  | cons c m =>
    obtain ⟨k, w⟩ := c
    simp only [cellsRiseAbove, Bool.and_eq_true, decide_eq_true_eq] at h ⊢
    exact ⟨by omega, h.2⟩

theorem cellsRiseAbove_put (m : Cells α) (lo a : Nat) (v : α) (h : cellsRiseAbove lo m = true) (ha : lo < a) :
    cellsRiseAbove lo (cellsPut m a v) = true := by
  induction m generalizing lo with
  | nil => simp [cellsPut, cellsRiseAbove, ha]
  | cons c m ih =>
    obtain ⟨k, w⟩ := c
    simp only [cellsRiseAbove, Bool.and_eq_true, decide_eq_true_eq] at h
    simp only [cellsPut]
    split
    · simp [cellsRiseAbove, *]
    · split
      · subst a; simp [cellsRiseAbove, *]
      · simp only [cellsRiseAbove, Bool.and_eq_true, decide_eq_true_eq]
        exact ⟨h.1, ih k h.2 (by omega)⟩

/-- A write keeps the keys rising. -/
theorem cellsRise_put (m : Cells α) (a : Nat) (v : α) (h : cellsRise m = true) : cellsRise (cellsPut m a v) = true := by
  cases m with
  | nil => rfl
  | cons c m =>
    obtain ⟨k, w⟩ := c
    simp only [cellsRise] at h
    simp only [cellsPut]
    split
    · simp [cellsRise, cellsRiseAbove, *]
    · split
      · subst a; simpa [cellsRise] using h
      · simp only [cellsRise]; exact cellsRiseAbove_put m k a v h (by omega)

theorem cellsRiseAbove_del (m : Cells α) (lo a : Nat) (h : cellsRiseAbove lo m = true) :
    cellsRiseAbove lo (cellsDel m a) = true := by
  induction m generalizing lo with
  | nil => rfl
  | cons c m ih =>
    obtain ⟨k, w⟩ := c
    simp only [cellsRiseAbove, Bool.and_eq_true, decide_eq_true_eq] at h
    simp only [cellsDel]
    split
    · exact cellsRiseAbove_mono m k lo h.2 (by omega)
    · simp only [cellsRiseAbove, Bool.and_eq_true, decide_eq_true_eq]; exact ⟨h.1, ih k h.2⟩

/-- Removing an entry keeps the keys rising. -/
theorem cellsRise_del (m : Cells α) (a : Nat) (h : cellsRise m = true) : cellsRise (cellsDel m a) = true := by
  cases m with
  | nil => rfl
  | cons c m =>
    obtain ⟨k, w⟩ := c
    simp only [cellsRise] at h
    simp only [cellsDel]
    split
    · exact cellsRise_of_above m k h
    · simp only [cellsRise]; exact cellsRiseAbove_del m k a h

theorem cellsFind_del (m : Cells α) (a b : Nat) (h : cellsRise m = true) :
    cellsFind (cellsDel m a) b = if b = a then none else cellsFind m b := by
  induction m with
  | nil => simp [cellsDel]
  | cons c m ih =>
    obtain ⟨k, w⟩ := c
    have h' : cellsRiseAbove k m = true := h
    simp only [cellsDel, cellsFind]
    split
    · subst a
      by_cases hb : b = k
      · subst b; simp [cellsFind_rise_lt m k k h' (Nat.le_refl _)]
      · simp [hb]
    · simp only [cellsFind, ih (cellsRise_of_above m k h')]; grind

/-- What is listed after a write. -/
theorem mem_cellsPut (m : Cells α) (a : Nat) (v : α) (c : Nat × α) (h : c ∈ cellsPut m a v) : c = (a, v) ∨ c ∈ m := by
  induction m with
  | nil => simpa [cellsPut] using h
  | cons d m ih =>
    obtain ⟨k, w⟩ := d
    simp only [cellsPut] at h
    split at h
    · simpa using h
    · split at h
      · simp only [List.mem_cons] at h ⊢; tauto
      · simp only [List.mem_cons] at h ⊢; tauto

/-- What is listed after a removal. -/
theorem mem_cellsDel (m : Cells α) (a : Nat) (c : Nat × α) (h : c ∈ cellsDel m a) : c ∈ m := by
  induction m with
  | nil => simp [cellsDel] at h
  | cons d m ih =>
    obtain ⟨k, w⟩ := d
    simp only [cellsDel] at h
    split at h
    · simp [h]
    · simp only [List.mem_cons] at h ⊢; tauto

variable [DecidableEq α]

/-- The read after a write, for a table in which unlisted keys read as `d`. -/
theorem readOr_writeOr (d : α) (m : Cells α) (a b : Nat) (v : α) (h : cellsRise m = true) :
    readOr d (writeOr d m a v) b = if b = a then v else readOr d m b := by
  unfold readOr writeOr
  split
  · rw [cellsFind_del m a b h]; split <;> simp_all
  · rw [cellsFind_put]; split <;> simp_all

theorem cellsRise_writeOr (d : α) (m : Cells α) (a : Nat) (v : α) (h : cellsRise m = true) :
    cellsRise (writeOr d m a v) = true := by
  unfold writeOr; split
  · exact cellsRise_del m a h
  · exact cellsRise_put m a v h

/-- What is listed after a write to such a table. -/
theorem mem_writeOr (d : α) (m : Cells α) (a : Nat) (v : α) (c : Nat × α) (h : c ∈ writeOr d m a v) :
    (c = (a, v) ∧ v ≠ d) ∨ c ∈ m := by
  unfold writeOr at h; split at h
  · exact .inr (mem_cellsDel m a c h)
  · rcases mem_cellsPut m a v c h with h | h
    · exact .inl ⟨h, by assumption⟩
    · exact .inr h

/-- A write keeps the canonical form. -/
theorem cellsCanonical_writeOr (d : α) (bound : Nat) (m : Cells α) (a : Nat) (v : α)
    (h : cellsCanonical d bound m = true) (ha : a < bound) : cellsCanonical d bound (writeOr d m a v) = true := by
  simp only [cellsCanonical, Bool.and_eq_true, List.all_eq_true, decide_eq_true_eq] at h ⊢
  refine ⟨cellsRise_writeOr d m a v h.1, fun c hc => ?_⟩
  rcases mem_writeOr d m a v c hc with ⟨rfl, hv⟩ | hc
  · exact ⟨ha, hv⟩
  · exact h.2 c hc

end Sys2Proof.Machine
end

