-- ==== Sys2Proof/Safety.lean ====
section
/-! DEFINITION. The terms statements about the block are written in: a running block, the state after an answer, what it
means for a table to be well formed, and the invariant that every step keeps. -/

namespace Sys2Proof.Machine

/-- The block is not halted (60_exceptions.md R311). -/
def State.Running (s : State) : Prop := s.status.fatal = false

/-- The state after a command other than `STGET` has answered code `c` with `r0` and `r1`, everything else as in `s`
(R83, R310). -/
def State.answered (s : State) (c : FaultCode) (r0 r1 : Word) : State :=
  { s with
    status :=
      { fatal := s.status.fatal || decide (c = .fatalConfiguration)
        warn := s.status.warn
        faultSeen := s.status.faultSeen || decide (c ≠ .ok)
        lastFault := c }
    responses := s.responses ++ [⟨c, r0, r1⟩] }

/-- A channel number that is legal in a band: `nStart <= n <= nEnd` (45_channel_table.md R240). -/
def InBand (b : Band) (n : Word) : Prop :=
  (Config.bandTable b).nStart.toNat ≤ n.toNat ∧ n.toNat ≤ (Config.bandTable b).nEnd.toNat

/-- The position of a channel in its band, `n − nStart` (R251). -/
def channelIndex (b : Band) (n : Word) : Nat := n.toNat - (Config.bandTable b).nStart.toNat

/-- A 32-bit operand that names no supported band (R243). -/
def Unsupported (band : Word) : Prop := ∀ b, band ≠ bandWord b

/-- The scaling factors (R246). -/
def LegalMu (mu : Word) : Prop := mu = 1#32 ∨ mu = 2#32 ∨ mu = 4#32 ∨ mu = 8#32

/-- A value `SET` accepts (40_codec_common.md R113). -/
def LegalValue (r : Reg) (value : Word) : Prop :=
  if r = .mht .headerType then value.toNat ∈ [0, 1, 2, 3, 15] else value.toNat < 2 ^ r.width

/-- The banks in the order of their selectors, from 0 (30_encoding.md R85). -/
def banksBySelector : List Bank := [.mht, .bh, .uh, .mux, .nb, .cb, .areq, .arsp, .rar, .rdc, .aci]

/-! The tables of 10_state.md R21 to R31: one row for each field, in the order of the field selectors (R86), from 0; each row
holds the width and the registers of the field, in the order of the indices (R87). -/

/-- The table of R21: bank `MHT`. -/
def mhtTable : List (Nat × List Reg) :=
  [(2, [.mht .version]), (2, [.mht .security]), (4, [.mht .headerType])]

/-- The table of R22: bank `BH`. -/
def bhTable : List (Nat × List Reg) :=
  [(24, [.bh .networkId]), (32, [.bh .transmitterAddress])]

/-- The table of R23: bank `UH`. -/
def uhTable : List (Nat × List Reg) :=
  [(1, [.uh .reset]), (12, [.uh .sequenceNumber]), (32, [.uh .receiverAddress]), (32, [.uh .transmitterAddress])]

/-- The table of R24: bank `MUX`. -/
def muxTable : List (Nat × List Reg) :=
  [(2, [.mux .macExt]), (6, [.mux .ieType]), (16, [.mux .length])]

/-- The table of R25: bank `NB`. -/
def nbTable : List (Nat × List Reg) :=
  [(1, [.nb .txPowerFlag]), (1, [.nb .powerConst]), (1, [.nb .currentFlag]), (2, [.nb .nbChannels]),
   (4, [.nb .nbPeriod]), (4, [.nb .cbPeriod]), (13, [.nb .nextClusterChannel]), (32, [.nb .timeToNext]),
   (4, [.nb .clustersMaxTxPower]), (13, [.nb .currentClusterChannel]),
   (13, [.nb (.additionalChannel .i0), .nb (.additionalChannel .i1), .nb (.additionalChannel .i2)])]

/-- The table of R26: bank `CB`. -/
def cbTable : List (Nat × List Reg) :=
  [(8, [.cb .sfn]), (1, [.cb .txPowerFlag]), (1, [.cb .powerConst]), (1, [.cb .foFlag]), (1, [.cb .nextChannelFlag]),
   (1, [.cb .timeToNextFlag]), (4, [.cb .nbPeriod]), (4, [.cb .cbPeriod]), (4, [.cb .countToTrigger]),
   (2, [.cb .relQuality]), (2, [.cb .minQuality]), (4, [.cb .clustersMaxTxPower]), (8, [.cb .frameOffset]),
   (13, [.cb .nextClusterChannel]), (32, [.cb .timeToNext])]

/-- The table of R27: bank `AREQ`. -/
def areqTable : List (Nat × List Reg) :=
  [(3, [.areq .setupCause]), (3, [.areq .numberOfFlows]), (1, [.areq .powerConst]), (1, [.areq .ftMode]),
   (1, [.areq .currentFlag]), (3, [.areq .harqProcessesTx]), (5, [.areq .maxHarqReTx]),
   (3, [.areq .harqProcessesRx]), (5, [.areq .maxHarqReRx]),
   (6, [.areq (.flowId .i0), .areq (.flowId .i1), .areq (.flowId .i2), .areq (.flowId .i3),
      .areq (.flowId .i4), .areq (.flowId .i5)]),
   (4, [.areq .nbPeriod]), (4, [.areq .cbPeriod]), (13, [.areq .nextClusterChannel]), (32, [.areq .timeToNext]),
   (13, [.areq .currentClusterChannel])]

/-- The table of R28: bank `ARSP`. -/
def arspTable : List (Nat × List Reg) :=
  [(1, [.arsp .ackNack]), (1, [.arsp .harqMod]), (3, [.arsp .numberOfFlows]), (1, [.arsp .group]),
   (4, [.arsp .rejectCause]), (4, [.arsp .rejectTime]), (3, [.arsp .harqProcessesRx]), (5, [.arsp .maxHarqReRx]),
   (3, [.arsp .harqProcessesTx]), (5, [.arsp .maxHarqReTx]),
   (6, [.arsp (.flowId .i0), .arsp (.flowId .i1), .arsp (.flowId .i2), .arsp (.flowId .i3),
      .arsp (.flowId .i4), .arsp (.flowId .i5)]),
   (7, [.arsp .groupId]), (7, [.arsp .resourceTag])]

/-- The table of R29: bank `RAR`. -/
def rarTable : List (Nat × List Reg) :=
  [(2, [.rar .repeatMode]), (1, [.rar .sfnFlag]), (1, [.rar .channelFlag]), (1, [.rar .chan2Flag]),
   (8, [.rar .startSubslot]), (1, [.rar .lengthType]), (7, [.rar .length]), (1, [.rar .maxLenType]),
   (4, [.rar .maxRachLength]), (3, [.rar .cwMinSig]), (1, [.rar .dectDelay]), (4, [.rar .responseWindow]),
   (3, [.rar .cwMaxSig]), (8, [.rar .repetition]), (8, [.rar .validity]), (8, [.rar .sfnOffset]),
   (13, [.rar .channel]), (13, [.rar .channel2])]

/-- The table of R30: bank `RDC`. -/
def rdcTable : List (Nat × List Reg) :=
  [(3, [.rdc .numPhyCap]), (5, [.rdc .release]), (1, [.rdc .groupAss]), (1, [.rdc .paging]),
   (2, [.rdc .operatingModes]), (1, [.rdc .mesh]), (1, [.rdc .schedul]), (3, [.rdc .macSecurity]),
   (3, [.rdc .dlcServiceType]), (3, [.rdc .rdPowerClass]), (2, [.rdc .maxNssRx]), (2, [.rdc .rxForTxDiversity]),
   (4, [.rdc .rxGain]), (4, [.rdc .maxMcs]), (4, [.rdc .softBufferSize]), (2, [.rdc .numHarqProcesses]),
   (4, [.rdc .harqFeedbackDelay])]

/-- The table of R31: bank `ACI`. -/
def aciTable : List (Nat × List Reg) :=
  [(1, [.aci .cbM]), (3, [.aci .dlDataReception]), (4, [.aci .ulPeriod])]

/-- The tables, in the order of the bank selectors. -/
def fieldTables : List (List (Nat × List Reg)) :=
  [mhtTable, bhTable, uhTable, muxTable, nbTable, cbTable, areqTable, arspTable, rarTable, rdcTable, aciTable]

/-- The register that three selectors name, with its width, by the tables of R21 to R31 (R85 to R87). -/
def registerAt (bank field idx : Nat) : Option (Nat × Reg) :=
  match fieldTables[bank]? with
  | none => none
  | some table =>
    match table[field]? with
    | none => none
    | some (w, regs) => regs[idx]?.map fun r => (w, r)

/-- `put13` on numbers (40_codec_common.md R132). -/
def bytes13 (v : Nat) : List Nat := [v / 2 ^ 8, v % 2 ^ 8]

/-- `put24` on numbers (R132). -/
def bytes24 (v : Nat) : List Nat := [v / 2 ^ 16, v / 2 ^ 8 % 2 ^ 8, v % 2 ^ 8]

/-- `put32` on numbers (R132). -/
def bytes32 (v : Nat) : List Nat := [v / 2 ^ 24, v / 2 ^ 16 % 2 ^ 8, v / 2 ^ 8 % 2 ^ 8, v % 2 ^ 8]

/-- The bytes of the flow identifiers that are carried: the first `n`, none for `n = 7` (43_association_messages.md R191). -/
def flowBytes (n : Nat) (id : Idx6 → Nat) : List Nat :=
  [id .i0, id .i1, id .i2, id .i3, id .i4, id .i5].take (if n = 7 then 0 else n)

/-- Fields of each bank, in selector order (30_encoding.md R86). -/
def fieldCounts : List Nat := [3, 2, 4, 3, 11, 15, 15, 13, 18, 17, 3]

/-- The legal indices of a field, as their number (R87). -/
def indexCount (bank field : Nat) : Nat :=
  if bank = 4 ∧ field = 10 then 3 else if bank = 6 ∧ field = 9 then 6 else if bank = 7 ∧ field = 10 then 6 else 1

/-- The illegal records as R89 lists them, on the opcode and the operands as numbers. -/
def illegalByR89 (op a0 a1 a2 a3 : Nat) : Prop :=
  (11 < op ∧ op < 16) ∨ (25 < op ∧ op < 32) ∨ (35 < op ∧ op < 48) ∨ 49 < op
  ∨ (1 ≤ op ∧ op ≤ 7 ∧ 10 < a0)
  ∨ ((op = 2 ∨ op = 3) ∧ a0 ≤ 10 ∧ (fieldCounts.getD a0 0 ≤ a1 ∨ indexCount a0 a1 ≤ a2))
  ∨ (op = 7 ∧ a0 ≠ 0 ∧ a0 ≠ 3)
  ∨ (op = 18 ∧ 4 < a1) ∨ (op = 23 ∧ 2 < a3) ∨ (op = 25 ∧ 4 < a1)
  ∨ ((op = 23 ∨ op = 24) ∧ 65536 ≤ a2) ∨ (op = 24 ∧ 262144 ≤ a3)

/-- The tick at which a coordinate starts (R256 (d)). -/
def tickOf (frame slot subslot offset d : Nat) : Nat :=
  frame * Config.frameTicks + slot * Config.slotTicks + subslot * d + offset

/-- A channel table in canonical form: rising keys, every listed record at a subslot that exists, different from the record
`CHINIT` writes, and with its duration (10_state.md R42, R43). -/
def ChanTable.WellFormed (p : BandParams) (t : ChanTable) : Prop :=
  cellsRise t.subs = true ∧ ∀ c ∈ t.subs,
    (∃ k slot subslot, k ≤ p.lastIndex ∧ slot < Config.slotsPerFrame ∧ subslot < t.mu.subslots
      ∧ c.1 = subKey k slot subslot)
    ∧ c.2 ≠ freshRec t.mu ∧ c.2.duration = (freshRec t.mu).duration

/-- A spectral model in canonical form: rising indices of channels that exist, no accumulator listed at 0 (R44). -/
def SpecModel.WellFormed (p : BandParams) (m : SpecModel) : Prop :=
  cellsCanonical 0#64 (p.lastIndex + 1) m.pwr = true

/-- How the fields of `STATUS` hang together (R36, R310 to R312). -/
structure Status.Consistent (t : Status) : Prop where
  /-- a fault code is only there while the sticky bit is -/
  seen : t.lastFault ≠ .ok → t.faultSeen = true
  /-- halted exactly when the last code is FatalConfiguration or Halted -/
  halted : t.fatal = true ↔ t.lastFault = .fatalConfiguration ∨ t.lastFault = .halted

/-- The invariant of the block: the cursor is in `0..BUF_SIZE` (R37), every table is in canonical form, and `STATUS` is
consistent. -/
structure State.Inv (s : State) : Prop where
  /-- R37 -/
  cur_le : s.cur.toNat ≤ Config.bufSize
  /-- R39 -/
  buf_wf : Memory.wf s.buf = true
  /-- R42 -/
  chan_wf : ∀ b t, s.chan.get b = some t → t.WellFormed (Config.bandTable b)
  /-- R44 -/
  spec_wf : ∀ b m, s.spec.get b = some m → m.WellFormed (Config.bandTable b)
  /-- R36 -/
  status_ok : s.status.Consistent

end Sys2Proof.Machine
end

