-- ==== Sys2Proof/Laws/Memory.lean ====
section
/-! SUPPORT. The byte buffer: a read after a write, and the canonical form every operation keeps. -/

namespace Sys2Proof.Machine

/-- The written value of a byte after a store of one byte. -/
theorem memFind_memPut (m : Memory) (a : Nat) (v : Byte) (x : Nat) :
    memFind (memPut m a v) x = if x = a then some v else memFind m x := cellsFind_put m a x v

/-- The written value of a byte after a store of some bytes. -/
theorem memFind_memWrite (m : Memory) (a : Nat) (bytes : List Byte) (x : Nat) :
    memFind (memWrite m a bytes) x = if a ≤ x ∧ x < a + bytes.length then bytes[x - a]? else memFind m x := by
  induction bytes generalizing m a with
  | nil => simp [memWrite]
  | cons v vs ih =>
    simp only [memWrite, ih, List.length_cons, memFind_memPut]
    by_cases h1 : a + 1 ≤ x ∧ x < a + 1 + vs.length
    · rw [if_pos h1, if_pos (by omega), show x - a = (x - (a + 1)) + 1 by omega]; simp
    · rw [if_neg h1]
      by_cases h2 : x = a
      · subst h2; simp
      · rw [if_neg h2, if_neg (by omega)]

/-- A byte of the buffer after a store of some bytes: the byte stored there, or what it was. -/
theorem bufByte_memWrite (s t : State) (a : Nat) (bytes : List Byte) (x : Nat)
    (hb : t.buf = memWrite s.buf a bytes) (he : t.epoch = s.epoch) :
    bufByte t x = if a ≤ x ∧ x < a + bytes.length then bytes.getD (x - a) 0#8 else bufByte s x := by
  unfold bufByte
  rw [hb, he, memFind_memWrite]
  split
  · rename_i h
    have : x - a < bytes.length := by omega
    simp [this]
  · rfl

/-- Two states with the same buffer and the same free contents read alike. -/
theorem bufByte_congr (s t : State) (hb : t.buf = s.buf) (he : t.epoch = s.epoch) (x : Nat) : bufByte t x = bufByte s x := by
  unfold bufByte; rw [hb, he]

/-- The length of what is read. -/
@[simp] theorem memRead_length (s : State) (a n : Nat) : (memRead s a n).length = n := by simp [memRead]

/-- The bytes that are read. -/
theorem memRead_getElem? (s : State) (a n i : Nat) (h : i < n) : (memRead s a n)[i]? = some (bufByte s (a + i)) := by
  simp [memRead, h]

/-- What a store has put into the buffer is what is read back. -/
theorem memRead_memWrite (s t : State) (a : Nat) (bytes : List Byte) (hb : t.buf = memWrite s.buf a bytes)
    (he : t.epoch = s.epoch) : memRead t a bytes.length = bytes := by
  apply List.ext_getElem (by simp)
  intro i h1 h2
  simp only [memRead, List.getElem_map, List.getElem_range]
  rw [bufByte_memWrite s t a bytes _ hb he, if_pos (by omega)]
  have : i < bytes.length := h2
  simp [this]

/-- A shorter read is the front of a longer one. -/
theorem memRead_take (s : State) (a n k : Nat) (h : k ≤ n) : (memRead s a n).take k = memRead s a k := by
  apply List.ext_getElem (by simp [h])
  intro i h1 h2
  simp [memRead]

theorem Memory.wf_iff (m : Memory) :
    Memory.wf m = true ↔ cellsRise m = true ∧ ∀ c ∈ m, c.1 < Config.bufSize := by
  simp [Memory.wf, List.all_eq_true]

/-- A store of one byte keeps the canonical form. -/
theorem Memory.wf_memPut (m : Memory) (a : Nat) (v : Byte) (h : Memory.wf m = true) (ha : a < Config.bufSize) :
    Memory.wf (memPut m a v) = true := by
  rw [Memory.wf_iff] at h ⊢
  refine ⟨cellsRise_put m a v h.1, fun c hc => ?_⟩
  rcases mem_cellsPut m a v c hc with rfl | hc
  · exact ha
  · exact h.2 c hc

/-- A store keeps the canonical form. -/
theorem Memory.wf_memWrite (m : Memory) (a : Nat) (bytes : List Byte) (h : Memory.wf m = true)
    (ha : a + bytes.length ≤ Config.bufSize) : Memory.wf (memWrite m a bytes) = true := by
  induction bytes generalizing m a with
  | nil => exact h
  | cons v vs ih =>
    simp only [List.length_cons] at ha
    exact ih _ _ (Memory.wf_memPut m a v h (by omega)) (by omega)

/-- The buffer at reset has the canonical form. -/
theorem Memory.wf_reset : Memory.wf State.reset.buf = true := rfl

end Sys2Proof.Machine
end

