-- ==== Sys2Proof/Laws/Wire.lean ====
section
/-! SUPPORT. The bytes of the wire formats: the fields of a byte are read back where they were written (00_scope.md R10,
R11), and the number of bytes of each structure. -/

namespace Sys2Proof

/-! ### The fields of a byte -/

@[simp] theorem byte_mht (a : BitVec 2) (b : BitVec 2) (c : BitVec 4) :
    (a ++ b ++ c : Byte).extractLsb' 6 2 = a
    ∧ (a ++ b ++ c : Byte).extractLsb' 4 2 = b
    ∧ (a ++ b ++ c : Byte).extractLsb' 0 4 = c := by
  revert a b c; decide

@[simp] theorem byte_uh0 (a : BitVec 1) (b : BitVec 4) :
    (0#3 ++ a ++ b : Byte).extractLsb' 4 1 = a ∧ (0#3 ++ a ++ b : Byte).extractLsb' 0 4 = b := by
  revert a b; decide

@[simp] theorem byte_form0 (a : BitVec 6) :
    (0#2 ++ a : Byte).extractLsb' 6 2 = 0#2 ∧ (0#2 ++ a : Byte).extractLsb' 0 6 = a := by
  revert a; decide

@[simp] theorem byte_form1 (a : BitVec 6) :
    (1#2 ++ a : Byte).extractLsb' 6 2 = 1#2 ∧ (1#2 ++ a : Byte).extractLsb' 0 6 = a := by
  revert a; decide

@[simp] theorem byte_form2 (a : BitVec 6) :
    (2#2 ++ a : Byte).extractLsb' 6 2 = 2#2 ∧ (2#2 ++ a : Byte).extractLsb' 0 6 = a := by
  revert a; decide

@[simp] theorem byte_form3 (a : BitVec 1) (b : BitVec 5) :
    (3#2 ++ a ++ b : Byte).extractLsb' 6 2 = 3#2
    ∧ (3#2 ++ a ++ b : Byte).extractLsb' 5 1 = a
    ∧ (3#2 ++ a ++ b : Byte).extractLsb' 0 5 = b := by
  revert a b; decide

@[simp] theorem byte_nb0 (a : BitVec 1) (b : BitVec 1) (c : BitVec 1) (d : BitVec 2) :
    (0#3 ++ a ++ b ++ c ++ d : Byte).extractLsb' 4 1 = a
    ∧ (0#3 ++ a ++ b ++ c ++ d : Byte).extractLsb' 3 1 = b
    ∧ (0#3 ++ a ++ b ++ c ++ d : Byte).extractLsb' 2 1 = c
    ∧ (0#3 ++ a ++ b ++ c ++ d : Byte).extractLsb' 0 2 = d := by
  revert a b c d; decide

@[simp] theorem byte_nibbles (a : BitVec 4) (b : BitVec 4) :
    (a ++ b : Byte).extractLsb' 4 4 = a ∧ (a ++ b : Byte).extractLsb' 0 4 = b := by
  revert a b; decide

@[simp] theorem byte_chan13 (a : BitVec 5) :
    (0#3 ++ a : Byte).extractLsb' 0 5 = a := by
  revert a; decide

@[simp] theorem byte_low4 (a : BitVec 4) :
    (0#4 ++ a : Byte).extractLsb' 0 4 = a := by
  revert a; decide

@[simp] theorem byte_cb1 (a : BitVec 1) (b : BitVec 1) (c : BitVec 1) (d : BitVec 1) (e : BitVec 1) :
    (0#3 ++ a ++ b ++ c ++ d ++ e : Byte).extractLsb' 4 1 = a
    ∧ (0#3 ++ a ++ b ++ c ++ d ++ e : Byte).extractLsb' 3 1 = b
    ∧ (0#3 ++ a ++ b ++ c ++ d ++ e : Byte).extractLsb' 2 1 = c
    ∧ (0#3 ++ a ++ b ++ c ++ d ++ e : Byte).extractLsb' 1 1 = d
    ∧ (0#3 ++ a ++ b ++ c ++ d ++ e : Byte).extractLsb' 0 1 = e := by
  revert a b c d e; decide

@[simp] theorem byte_cb3 (a : BitVec 4) (b : BitVec 2) (c : BitVec 2) :
    (a ++ b ++ c : Byte).extractLsb' 4 4 = a
    ∧ (a ++ b ++ c : Byte).extractLsb' 2 2 = b
    ∧ (a ++ b ++ c : Byte).extractLsb' 0 2 = c := by
  revert a b c; decide

@[simp] theorem byte_flow (a : BitVec 6) :
    (0#2 ++ a : Byte).extractLsb' 0 6 = a := by
  revert a; decide

@[simp] theorem byte_areq0 (a : BitVec 3) (b : BitVec 3) (c : BitVec 1) (d : BitVec 1) :
    (a ++ b ++ c ++ d : Byte).extractLsb' 5 3 = a
    ∧ (a ++ b ++ c ++ d : Byte).extractLsb' 2 3 = b
    ∧ (a ++ b ++ c ++ d : Byte).extractLsb' 1 1 = c
    ∧ (a ++ b ++ c ++ d : Byte).extractLsb' 0 1 = d := by
  revert a b c d; decide

@[simp] theorem byte_top1 (a : BitVec 1) :
    (a ++ 0#7 : Byte).extractLsb' 7 1 = a := by
  revert a; decide

@[simp] theorem byte_harq (a : BitVec 3) (b : BitVec 5) :
    (a ++ b : Byte).extractLsb' 5 3 = a ∧ (a ++ b : Byte).extractLsb' 0 5 = b := by
  revert a b; decide

@[simp] theorem byte_arsp0 (a : BitVec 1) (b : BitVec 1) (c : BitVec 3) (d : BitVec 1) :
    (a ++ 0#1 ++ b ++ c ++ d ++ 0#1 : Byte).extractLsb' 7 1 = a
    ∧ (a ++ 0#1 ++ b ++ c ++ d ++ 0#1 : Byte).extractLsb' 5 1 = b
    ∧ (a ++ 0#1 ++ b ++ c ++ d ++ 0#1 : Byte).extractLsb' 2 3 = c
    ∧ (a ++ 0#1 ++ b ++ c ++ d ++ 0#1 : Byte).extractLsb' 1 1 = d := by
  revert a b c d; decide

@[simp] theorem byte_low7 (a : BitVec 7) :
    (0#1 ++ a : Byte).extractLsb' 0 7 = a := by
  revert a; decide

@[simp] theorem byte_rar0 (a : BitVec 2) (b : BitVec 1) (c : BitVec 1) (d : BitVec 1) :
    (0#3 ++ a ++ b ++ c ++ d : Byte).extractLsb' 3 2 = a
    ∧ (0#3 ++ a ++ b ++ c ++ d : Byte).extractLsb' 2 1 = b
    ∧ (0#3 ++ a ++ b ++ c ++ d : Byte).extractLsb' 1 1 = c
    ∧ (0#3 ++ a ++ b ++ c ++ d : Byte).extractLsb' 0 1 = d := by
  revert a b c d; decide

@[simp] theorem byte_oneSeven (a : BitVec 1) (b : BitVec 7) :
    (a ++ b : Byte).extractLsb' 7 1 = a ∧ (a ++ b : Byte).extractLsb' 0 7 = b := by
  revert a b; decide

@[simp] theorem byte_rar3 (a : BitVec 1) (b : BitVec 4) (c : BitVec 3) :
    (a ++ b ++ c : Byte).extractLsb' 7 1 = a
    ∧ (a ++ b ++ c : Byte).extractLsb' 3 4 = b
    ∧ (a ++ b ++ c : Byte).extractLsb' 0 3 = c := by
  revert a b c; decide

@[simp] theorem byte_rdc1 (a : BitVec 1) (b : BitVec 1) (c : BitVec 2) (d : BitVec 1) (e : BitVec 1) :
    (0#2 ++ a ++ b ++ c ++ d ++ e : Byte).extractLsb' 5 1 = a
    ∧ (0#2 ++ a ++ b ++ c ++ d ++ e : Byte).extractLsb' 4 1 = b
    ∧ (0#2 ++ a ++ b ++ c ++ d ++ e : Byte).extractLsb' 2 2 = c
    ∧ (0#2 ++ a ++ b ++ c ++ d ++ e : Byte).extractLsb' 1 1 = d
    ∧ (0#2 ++ a ++ b ++ c ++ d ++ e : Byte).extractLsb' 0 1 = e := by
  revert a b c d e; decide

@[simp] theorem byte_rdc2 (a : BitVec 3) (b : BitVec 3) :
    (a ++ b ++ 0#2 : Byte).extractLsb' 5 3 = a ∧ (a ++ b ++ 0#2 : Byte).extractLsb' 2 3 = b := by
  revert a b; decide

@[simp] theorem byte_rdc3 (a : BitVec 3) (b : BitVec 2) (c : BitVec 2) :
    (0#1 ++ a ++ b ++ c : Byte).extractLsb' 4 3 = a
    ∧ (0#1 ++ a ++ b ++ c : Byte).extractLsb' 2 2 = b
    ∧ (0#1 ++ a ++ b ++ c : Byte).extractLsb' 0 2 = c := by
  revert a b c; decide

@[simp] theorem byte_rdc5 (a : BitVec 4) (b : BitVec 2) :
    (a ++ b ++ 0#2 : Byte).extractLsb' 4 4 = a ∧ (a ++ b ++ 0#2 : Byte).extractLsb' 2 2 = b := by
  revert a b; decide

@[simp] theorem byte_aci (a : BitVec 1) (b : BitVec 3) (c : BitVec 4) :
    (a ++ b ++ c : Byte).extractLsb' 7 1 = a
    ∧ (a ++ b ++ c : Byte).extractLsb' 4 3 = b
    ∧ (a ++ b ++ c : Byte).extractLsb' 0 4 = c := by
  revert a b c; decide

/-! ### Fields of several bytes (R11, R132) -/

@[simp] theorem cat_chan13 (c : BitVec 13) : (c.extractLsb' 8 5 ++ c.extractLsb' 0 8 : BitVec 13) = c :=
  BitVec.extractLsb'_append_extractLsb'_eq_extractLsb' (x := c) (by rfl) |>.trans (by simp)

@[simp] theorem cat_seq12 (c : BitVec 12) : (c.extractLsb' 8 4 ++ c.extractLsb' 0 8 : BitVec 12) = c :=
  BitVec.extractLsb'_append_extractLsb'_eq_extractLsb' (x := c) (by rfl) |>.trans (by simp)

@[simp] theorem cat_len16 (c : BitVec 16) : (c.extractLsb' 8 8 ++ c.extractLsb' 0 8 : BitVec 16) = c :=
  BitVec.extractLsb'_append_extractLsb'_eq_extractLsb' (x := c) (by rfl) |>.trans (by simp)

@[simp] theorem cat_word24 (c : BitVec 24) :
    (c.extractLsb' 16 8 ++ c.extractLsb' 8 8 ++ c.extractLsb' 0 8 : BitVec 24) = c := by
  have h1 : (c.extractLsb' 16 8 ++ c.extractLsb' 8 8 : BitVec 16) = c.extractLsb' 8 16 :=
    BitVec.extractLsb'_append_extractLsb'_eq_extractLsb' (x := c) (by rfl)
  have h2 : (c.extractLsb' 8 16 ++ c.extractLsb' 0 8 : BitVec 24) = c :=
    BitVec.extractLsb'_append_extractLsb'_eq_extractLsb' (x := c) (by rfl) |>.trans (by simp)
  exact (congrArg (fun x : BitVec 16 => (x ++ c.extractLsb' 0 8 : BitVec 24)) h1).trans h2

@[simp] theorem cat_word32 (c : Word) :
    (c.extractLsb' 24 8 ++ c.extractLsb' 16 8 ++ c.extractLsb' 8 8 ++ c.extractLsb' 0 8 : Word) = c := by
  have h0 : (c.extractLsb' 24 8 ++ c.extractLsb' 16 8 : BitVec 16) = c.extractLsb' 16 16 :=
    BitVec.extractLsb'_append_extractLsb'_eq_extractLsb' (x := c) (by rfl)
  have h1 : (c.extractLsb' 16 16 ++ c.extractLsb' 8 8 : BitVec 24) = c.extractLsb' 8 24 :=
    BitVec.extractLsb'_append_extractLsb'_eq_extractLsb' (x := c) (by rfl)
  have h2 : (c.extractLsb' 8 24 ++ c.extractLsb' 0 8 : Word) = c :=
    BitVec.extractLsb'_append_extractLsb'_eq_extractLsb' (x := c) (by rfl) |>.trans (by simp)
  exact ((congrArg (fun x : BitVec 16 => (x ++ c.extractLsb' 8 8 ++ c.extractLsb' 0 8 : Word)) h0).trans
    (congrArg (fun x : BitVec 24 => (x ++ c.extractLsb' 0 8 : Word)) h1)).trans h2

/-! ### Lengths (R131) -/

@[simp] theorem put13_length (c : BitVec 13) : (put13 c).length = 2 := rfl
@[simp] theorem put24_length (c : BitVec 24) : (put24 c).length = 3 := rfl
@[simp] theorem put32_length (c : Word) : (put32 c).length = 4 := rfl
@[simp] theorem encMht_length (b : MhtBank) : (encMht b).length = 1 := rfl
@[simp] theorem encBh_length (b : BhBank) : (encBh b).length = 7 := rfl
@[simp] theorem encUh_length (b : UhBank) : (encUh b).length = 10 := rfl
@[simp] theorem encRdc_length (b : RdcBank) : (encRdc b).length = 7 := rfl
@[simp] theorem encAci_length (b : AciBank) : (encAci b).length = 1 := rfl

/-- A 1-bit flag as a number. -/
theorem flag_cases (f : BitVec 1) : f = 0#1 ∨ f = 1#1 := by revert f; decide

theorem optBytes_length (f : BitVec 1) (bytes : List Byte) :
    (optBytes (f = 1#1) bytes).length = f.toNat * bytes.length := by
  rcases flag_cases f with rfl | rfl <;> simp [optBytes]

theorem flows_le (n : BitVec 3) : flows n ≤ 6 := by unfold flows; split <;> omega

theorem encMux_length (b : MuxBank) : (encMux b).length = b.size := by
  unfold encMux MuxBank.size
  split
  · simp_all
  · split
    · rfl
    · split <;> rfl

theorem flatten_put13_length (l : List (BitVec 13)) : (l.map put13).flatten.length = 2 * l.length := by
  induction l with
  | nil => rfl
  | cons c l ih => simp only [List.map_cons, List.flatten_cons, List.length_append, put13_length, ih, List.length_cons]; omega

theorem encNb_length (b : NbBank) : (encNb b).length = b.size := by
  have h : b.nbChannels.toNat < 4 := b.nbChannels.isLt
  simp only [encNb, NbBank.size, List.length_append, flatten_put13_length, optBytes_length, List.length_cons,
    List.length_nil, put13_length, put32_length, Triple.toList, List.length_take]
  omega

theorem encCb_length (b : CbBank) : (encCb b).length = b.size := by
  simp only [encCb, CbBank.size, List.length_append, optBytes_length, List.length_cons, List.length_nil, put13_length,
    put32_length]
  omega

theorem encAreq_length (b : AreqBank) : (encAreq b).length = b.size := by
  have h := flows_le b.numberOfFlows
  rcases flag_cases b.ftMode with hf | hf <;> rcases flag_cases b.currentFlag with hc | hc <;>
    simp [encAreq, AreqBank.size, optBytes, hf, hc, Six.toList] <;> omega

theorem encArsp_length (b : ArspBank) : (encArsp b).length = b.size := by
  have h := flows_le b.numberOfFlows
  rcases flag_cases b.ackNack with ha | ha <;> rcases flag_cases b.harqMod with hm | hm <;>
    rcases flag_cases b.group with hg | hg <;> simp [encArsp, ArspBank.size, optBytes, ha, hm, hg, Six.toList] <;> omega

theorem encRar_length (b : RarBank) : (encRar b).length = b.size := by
  by_cases hr : b.repeatMode = 0#2 <;> rcases flag_cases b.sfnFlag with hs | hs <;>
    rcases flag_cases b.channelFlag with hc | hc <;> rcases flag_cases b.chan2Flag with h2 | h2 <;>
    simp [encRar, RarBank.size, optBytes, hr, hs, hc, h2]

end Sys2Proof
end

