-- ==== Sys2Proof/Laws/PerInstr.lean ====
section
/-! SUPPORT. What holds of every instruction, one lemma per constructor. `EncodedLength`: the length of an instruction's
encoding is 17 for a command (30_encoding.md R81) and the size of its structure for a wire row (R90). -/

namespace Sys2Proof.Laws

/-- The number of bytes an instruction is encoded in: 17, or the size of the structure. -/
def encodedSize : Instr → Nat
  | .nop => 17
  | .rst _ => 17
  | .set _ _ => 17
  | .get _ => 17
  | .size _ => 17
  | .ser _ => 17
  | .des _ => 17
  | .disp _ => 17
  | .seek _ => 17
  | .tell => 17
  | .bufwr _ _ => 17
  | .bufrd _ => 17
  | .chinit _ _ => 17
  | .chvalid _ => 17
  | .bandparm _ _ => 17
  | .cfreq _ _ => 17
  | .chfreq _ => 17
  | .chid _ => 17
  | .bin _ _ => 17
  | .ssget _ _ _ _ _ => 17
  | .ssset _ _ _ _ _ _ => 17
  | .tloc _ _ _ => 17
  | .pwadd _ _ _ => 17
  | .pwsub _ _ _ => 17
  | .rssi _ _ => 17
  | .w2dbm _ => 17
  | .stclr => 17
  | .stget => 17
  | .mht _ => 1
  | .bh _ => 7
  | .uh _ => 10
  | .muxForm0 _ => 1
  | .muxForm1 _ _ => 2
  | .muxForm2 _ _ => 3
  | .muxForm3 _ _ => 1
  | .nb w => w.size
  | .cb w => w.size
  | .areq w => w.size
  | .arspReject w => w.size
  | .arspAccept w => w.size
  | .rar w => w.size
  | .rdc _ => 7
  | .aci _ => 1

/-- The encoding of an instruction has that many bytes. -/
def EncodedLength.Statement (i : Instr) : Prop := (encode i).length = encodedSize i

/-- The 17 bytes of a record (R81). -/
theorem recordBytes_length (r : Record) : (recordBytes r).length = 17 := rfl

theorem EncodedLength.nop : EncodedLength.Statement (.nop) := rfl

theorem EncodedLength.rst : ∀ b, EncodedLength.Statement (.rst b) := fun _ => rfl

theorem EncodedLength.set : ∀ r value, EncodedLength.Statement (.set r value) := fun _ _ => rfl

theorem EncodedLength.get : ∀ r, EncodedLength.Statement (.get r) := fun _ => rfl

theorem EncodedLength.size : ∀ b, EncodedLength.Statement (.size b) := fun _ => rfl

theorem EncodedLength.ser : ∀ b, EncodedLength.Statement (.ser b) := fun _ => rfl

theorem EncodedLength.des : ∀ b, EncodedLength.Statement (.des b) := fun _ => rfl

theorem EncodedLength.disp : ∀ b, EncodedLength.Statement (.disp b) := fun _ => rfl

theorem EncodedLength.seek : ∀ addr, EncodedLength.Statement (.seek addr) := fun _ => rfl

theorem EncodedLength.tell : EncodedLength.Statement (.tell) := rfl

theorem EncodedLength.bufwr : ∀ addr value, EncodedLength.Statement (.bufwr addr value) := fun _ _ => rfl

theorem EncodedLength.bufrd : ∀ addr, EncodedLength.Statement (.bufrd addr) := fun _ => rfl

theorem EncodedLength.chinit : ∀ band mu, EncodedLength.Statement (.chinit band mu) := fun _ _ => rfl

theorem EncodedLength.chvalid : ∀ band, EncodedLength.Statement (.chvalid band) := fun _ => rfl

theorem EncodedLength.bandparm : ∀ band sel, EncodedLength.Statement (.bandparm band sel) := fun _ _ => rfl

theorem EncodedLength.cfreq : ∀ band n, EncodedLength.Statement (.cfreq band n) := fun _ _ => rfl

theorem EncodedLength.chfreq : ∀ n, EncodedLength.Statement (.chfreq n) := fun _ => rfl

theorem EncodedLength.chid : ∀ f, EncodedLength.Statement (.chid f) := fun _ => rfl

theorem EncodedLength.bin : ∀ band n, EncodedLength.Statement (.bin band n) := fun _ _ => rfl

theorem EncodedLength.ssget : ∀ band n slot subslot sel, EncodedLength.Statement (.ssget band n slot subslot sel) := fun _ _ _ _ _ => rfl

theorem EncodedLength.ssset : ∀ band n slot subslot status rssi, EncodedLength.Statement (.ssset band n slot subslot status rssi) := fun _ _ _ _ _ _ => rfl

theorem EncodedLength.tloc : ∀ band sel t, EncodedLength.Statement (.tloc band sel t) := fun _ _ _ => rfl

theorem EncodedLength.pwadd : ∀ band n p, EncodedLength.Statement (.pwadd band n p) := fun _ _ _ => rfl

theorem EncodedLength.pwsub : ∀ band n p, EncodedLength.Statement (.pwsub band n p) := fun _ _ _ => rfl

theorem EncodedLength.rssi : ∀ band n, EncodedLength.Statement (.rssi band n) := fun _ _ => rfl

theorem EncodedLength.w2dbm : ∀ p, EncodedLength.Statement (.w2dbm p) := fun _ => rfl

theorem EncodedLength.stclr : EncodedLength.Statement (.stclr) := rfl

theorem EncodedLength.stget : EncodedLength.Statement (.stget) := rfl

theorem EncodedLength.mht : ∀ w, EncodedLength.Statement (.mht w) := fun _ => rfl

theorem EncodedLength.bh : ∀ w, EncodedLength.Statement (.bh w) := fun _ => rfl

theorem EncodedLength.uh : ∀ w, EncodedLength.Statement (.uh w) := fun _ => rfl

theorem EncodedLength.muxForm0 : ∀ ieType, EncodedLength.Statement (.muxForm0 ieType) := fun _ => rfl

theorem EncodedLength.muxForm1 : ∀ ieType length, EncodedLength.Statement (.muxForm1 ieType length) := fun _ _ => rfl

theorem EncodedLength.muxForm2 : ∀ ieType length, EncodedLength.Statement (.muxForm2 ieType length) := fun _ _ => rfl

theorem EncodedLength.muxForm3 : ∀ ieType length, EncodedLength.Statement (.muxForm3 ieType length) := fun _ _ => rfl

theorem EncodedLength.nb : ∀ w, EncodedLength.Statement (.nb w) := fun w => encNb_length w

theorem EncodedLength.cb : ∀ w, EncodedLength.Statement (.cb w) := fun w => encCb_length w

theorem EncodedLength.areq : ∀ w, EncodedLength.Statement (.areq w) := fun w => encAreq_length w

theorem EncodedLength.arspReject : ∀ w, EncodedLength.Statement (.arspReject w) := fun w => encArsp_length w

theorem EncodedLength.arspAccept : ∀ w, EncodedLength.Statement (.arspAccept w) := fun w => encArsp_length w

theorem EncodedLength.rar : ∀ w, EncodedLength.Statement (.rar w) := fun w => encRar_length w

theorem EncodedLength.rdc : ∀ w, EncodedLength.Statement (.rdc w) := fun _ => rfl

theorem EncodedLength.aci : ∀ w, EncodedLength.Statement (.aci w) := fun _ => rfl

end Sys2Proof.Laws
end

