-- ==== Sys2Proof/Certificates/Slice0/Obligations.lean ====
section
/-! DEFINITION. The statements for the provers. `s.answered c r0 r1` is `s` with nothing changed but `STATUS` and the list of
responses, so an equation `exec i s = .next (… .answered …)` says an instruction's result and its whole frame. -/

open Sys2Proof Sys2Proof.Machine

/-! ### Reset, the port, faults -/

/-- R41: what reset leaves. That an unwritten byte is the free value is the model's form of 'unspecified' (log entry 4). -/
def Obligations.ResetLeavesAllClear : Prop :=
  (∀ r : Reg, State.reset.banks.read r = 0#32) ∧ State.reset.cur = 0#12 ∧ State.reset.status.word = 0#16
  ∧ (∀ b, State.reset.chan.get b = none ∧ State.reset.spec.get b = none)
  ∧ ∀ a, bufByte State.reset a = Config.unwrittenByte 0 a

/-- R330, R331: the reset input brings every register to its reset value, halted or not. The queue, the responses and the
epoch are the model's own (log entries 1 and 10). -/
def Obligations.ResetInputRestoresReset : Prop :=
  ∀ (s : State) (rest : List HostEvent), s.inbox = .reset :: rest →
    ∃ t, step s = .next t
      ∧ t = { State.reset with inbox := rest, responses := s.responses, epoch := s.epoch + 1 }
      ∧ ∀ a, bufByte t a = Config.unwrittenByte (s.epoch + 1) a

/-- R322: between commands the block holds its state. -/
def Obligations.IdleStepHoldsState : Prop := ∀ s : State, s.inbox = [] → step s = .next s

/-- A step runs the instruction that the record at the port decodes to, on the state without that record (R70, R110). -/
def Obligations.StepRunsDecodedRecord : Prop :=
  ∀ (s : State) (r : Record) (rest : List HostEvent) (i : Instr),
    s.inbox = .command r :: rest → decodeRecord r = .ok i → step s = exec i { s with inbox := rest }

/-- R110, R306, R307, R309: an illegal record is answered IllegalCommand, or Halted while the block is halted; nothing
else changes. -/
def Obligations.StepRefusesIllegalRecord : Prop :=
  ∀ (s : State) (r : Record) (rest : List HostEvent) (why : Illegal),
    s.inbox = .command r :: rest → decodeRecord r = .illegal why →
    step s = .next
      (({ s with inbox := rest } : State).answered (if s.status.fatal then .halted else .illegalCommand) 0#32 0#32)

/-- R89: exactly the records the rule lists are illegal. -/
def Obligations.IllegalRecordsAreThoseOfR89 : Prop :=
  ∀ (op : Byte) (a0 a1 a2 a3 : Word),
    (∃ why, decodeRecord (packRecord op (a0, a1, a2, a3)) = .illegal why)
      ↔ illegalByR89 op.toNat a0.toNat a1.toNat a2.toNat a3.toNat

/-- R83, R19: every record at the port yields a next state and exactly one response; a response with a fault carries no
values. -/
def Obligations.EveryRecordYieldsOneResponse : Prop :=
  ∀ (s : State) (r : Record) (rest : List HostEvent), s.inbox = .command r :: rest →
    ∃ t a, step s = .next t ∧ t.responses = s.responses ++ [a] ∧ t.inbox = rest
      ∧ (a.fault ≠ .ok → a.r0 = 0#32 ∧ a.r1 = 0#32)

/-- R310: a refused instruction changes nothing but `STATUS`, apart from the `WARN` of a `CHINIT` with an illegal scaling
factor (R303); code 2 halts; `FAULT_SEEN` is set and `LAST_FAULT` is the code. -/
def Obligations.RefusedInstructionChangesOnlyStatus : Prop :=
  ∀ (i : Instr) (s t : State) (a : Response), exec i s = .next t → t.responses = s.responses ++ [a] → a.fault ≠ .ok →
    t = s.answered a.fault 0#32 0#32
    ∨ ∃ band mu, i = .chinit band mu ∧ ¬ LegalMu mu ∧ a.fault = .fatalConfiguration
        ∧ t = ({ s with status := { s.status with warn := true } } : State).answered .fatalConfiguration 0#32 0#32

/-- R307: while `STATUS.FATAL` is 1 every record but `STGET`'s, legal or not, is answered Halted, and only `LAST_FAULT` and
`FAULT_SEEN` change. -/
def Obligations.HaltedBlockRefusesAllButStget : Prop :=
  ∀ (s : State) (r : Record) (rest : List HostEvent), s.inbox = .command r :: rest → s.status.fatal = true →
    decodeRecord r ≠ .ok .stget →
    ∃ t, step s = .next t
      ∧ t = { s with
          inbox := rest
          status := { s.status with lastFault := .halted, faultSeen := true }
          responses := s.responses ++ [⟨.halted, 0#32, 0#32⟩] }

/-- R311, R330: nothing but the reset input leaves the halted condition. -/
def Obligations.OnlyResetLeavesHalted : Prop :=
  ∀ s t : State, s.status.fatal = true → step s = .next t → t.status.fatal = false →
    ∃ rest, s.inbox = .reset :: rest

/-- R303, R311: only a command that looks up the parameters of an unsupported band halts the block. -/
def Obligations.OnlyUnsupportedBandHalts : Prop :=
  ∀ (i : Instr) (s t : State), s.Running → exec i s = .next t → t.status.fatal = true →
    ∃ band, Unsupported band
      ∧ ((∃ mu, i = .chinit band mu) ∨ (∃ x, i = .bandparm band x) ∨ (∃ n, i = .cfreq band n) ∨ (∃ n, i = .bin band n)
        ∨ (∃ n p, i = .pwadd band n p) ∨ (∃ n p, i = .pwsub band n p) ∨ ∃ n, i = .rssi band n)

/-! ### The status group -/

/-- R127: `NOP`, opcode 0x00, answers (0, 0) and changes nothing but `LAST_FAULT`; while halted it is answered Halted. -/
def Obligations.NopOnlyClearsLastFault : Prop :=
  (∀ a0 a1 a2 a3 : Word, decodeRecord (packRecord 0x00#8 (a0, a1, a2, a3)) = .ok .nop)
  ∧ ∀ s : State,
    (s.Running → exec .nop s = .next { s with
      status := { s.status with lastFault := .ok }, responses := s.responses ++ [⟨.ok, 0#32, 0#32⟩] })
    ∧ (s.status.fatal = true → exec .nop s = .next (s.answered .halted 0#32 0#32))

/-- R129, R36, R301, R83: `STGET`, opcode 0x31, answers the status word, halted or not, and leaves `STATUS` and everything
else as it is. The word has `FATAL` in bit 0, `WARN` in bit 1, `FAULT_SEEN` in bit 2, zeros in bits 7:3 and the number of
the last fault code in bits 15:8; the codes are numbered 0 to 7. A response is nine bytes: the code, `R0` and `R1`, each
most significant byte first. -/
def Obligations.StgetReadsStatus : Prop :=
  (∀ s : State, exec .stget s = .next { s with
    responses := s.responses ++ [⟨.ok, s.status.word.setWidth 32, 0#32⟩] })
  ∧ (∀ a0 a1 a2 a3 : Word, decodeRecord (packRecord 0x31#8 (a0, a1, a2, a3)) = .ok .stget)
  ∧ (∀ t : Status, t.word.toNat =
      256 * t.lastFault.code.toNat + 4 * t.faultSeen.toNat + 2 * t.warn.toNat + t.fatal.toNat)
  ∧ (FaultCode.ok.code = 0#8 ∧ FaultCode.invalidArgument.code = 1#8 ∧ FaultCode.fatalConfiguration.code = 2#8
    ∧ FaultCode.bufferOverrun.code = 3#8 ∧ FaultCode.notInitialized.code = 4#8 ∧ FaultCode.illegalCommand.code = 5#8
    ∧ FaultCode.halted.code = 6#8 ∧ FaultCode.accumulatorOverflow.code = 7#8)
  ∧ ∀ a : Response, a.bytes.map BitVec.toNat = a.fault.code.toNat :: bytes32 a.r0.toNat ++ bytes32 a.r1.toNat

/-- R128, R312: `STCLR`, opcode 0x30, clears `WARN` and `FAULT_SEEN`; it cannot clear `FATAL`. -/
def Obligations.StclrClearsStickyBits : Prop :=
  (∀ a0 a1 a2 a3 : Word, decodeRecord (packRecord 0x30#8 (a0, a1, a2, a3)) = .ok .stclr)
  ∧ ∀ s : State,
    (s.Running → exec .stclr s = .next { s with
      status := { fatal := false, warn := false, faultSeen := false, lastFault := .ok }
      responses := s.responses ++ [⟨.ok, 0#32, 0#32⟩] })
    ∧ (s.status.fatal = true → exec .stclr s = .next (s.answered .halted 0#32 0#32))

/-! ### The codec group -/

/-- R111: `RST`, opcode 0x01 with a bank selector of R85, makes every register of the bank 0, array elements too, and
touches nothing else. -/
def Obligations.RstClearsOneBank : Prop :=
  (∀ (k : Nat) (b : Bank) (a1 a2 a3 : Word), banksBySelector[k]? = some b →
    b.word = BitVec.ofNat 32 k ∧ decodeRecord (packRecord 0x01#8 (BitVec.ofNat 32 k, a1, a2, a3)) = .ok (.rst b))
  ∧ ∀ (s : State) (b : Bank), s.Running →
    ∃ B : Banks, exec (.rst b) s = .next (({ s with banks := B } : State).answered .ok 0#32 0#32)
      ∧ ∀ r : Reg, B.read r = if r.bank = b then 0#32 else s.banks.read r

/-- R112, R113: `SET`, opcode 0x02 with the selectors that the tables of R21 to R31 give a register (R85 to R87), with a
legal value writes that register and no other; with any other value it is refused, and the register keeps its value. Every
register is in a table, with its width. -/
def Obligations.SetWritesOneRegister : Prop :=
  (∀ (bank field idx w : Nat) (r : Reg) (v : Word), registerAt bank field idx = some (w, r) →
    decodeRecord (packRecord 0x02#8 (BitVec.ofNat 32 bank, BitVec.ofNat 32 field, BitVec.ofNat 32 idx, v)) = .ok (.set r v)
    ∧ r.width = w)
  ∧ (∀ r : Reg, ∃ bank field idx w, registerAt bank field idx = some (w, r))
  ∧ (∀ (r : Reg) (v : Word), decodeRecord (packRecord 0x02#8 (r.bankWord, r.fieldWord, r.idxWord, v)) = .ok (.set r v))
  ∧ ∀ (s : State) (r : Reg) (value : Word), s.Running →
    (LegalValue r value →
      ∃ B : Banks, exec (.set r value) s = .next (({ s with banks := B } : State).answered .ok 0#32 0#32)
        ∧ ∀ q : Reg, B.read q = if q = r then value else s.banks.read q)
    ∧ (¬ LegalValue r value → exec (.set r value) s = .next (s.answered .invalidArgument 0#32 0#32))

/-- R114, R32: `GET`, opcode 0x03 with the selectors of a register as for `SET`, answers the register, zero-extended, within
the width its table gives it, and changes no state. -/
def Obligations.GetAnswersRegister : Prop :=
  (∀ (bank field idx w : Nat) (r : Reg) (a3 : Word), registerAt bank field idx = some (w, r) →
    decodeRecord (packRecord 0x03#8 (BitVec.ofNat 32 bank, BitVec.ofNat 32 field, BitVec.ofNat 32 idx, a3)) = .ok (.get r)
    ∧ r.width = w)
  ∧ (∀ (r : Reg) (a3 : Word), decodeRecord (packRecord 0x03#8 (r.bankWord, r.fieldWord, r.idxWord, a3)) = .ok (.get r))
  ∧ ∀ (s : State) (r : Reg), s.Running →
    exec (.get r) s = .next (s.answered .ok (s.banks.read r) 0#32) ∧ (s.banks.read r).toNat < 2 ^ r.width

/-- R115, R90: `SIZE`, opcode 0x04 with a bank selector of R85, answers the size of the structure, which lies between its
mandatory part (`ARSP` and `MUX`: 1) and the longest structure. -/
def Obligations.SizeAnswersStructureSize : Prop :=
  (∀ (k : Nat) (b : Bank) (a1 a2 a3 : Word), banksBySelector[k]? = some b →
    decodeRecord (packRecord 0x04#8 (BitVec.ofNat 32 k, a1, a2, a3)) = .ok (.size b))
  ∧ ∀ (s : State) (b : Bank), s.Running →
    exec (.size b) s = .next (s.answered .ok (BitVec.ofNat 32 (s.banks.size b)) 0#32)
    ∧ b.prefixBytes ≤ s.banks.size b ∧ s.banks.size b ≤ 19

/-- R116, R63, R156, R309: `SER`, opcode 0x05 with a bank selector of R85, writes the structure's bytes at the cursor,
advances the cursor by their number, answers it, and leaves every other byte and everything else as it was. An
inconsistent `MUX` header is InvalidArgument, before the bound is looked at; a structure that would pass the end is
BufferOverrun. What the bytes are, `StructureBytesAreThoseOfTheSpec` says. -/
def Obligations.SerWritesStructure : Prop :=
  (∀ (k : Nat) (b : Bank) (a1 a2 a3 : Word), banksBySelector[k]? = some b →
    decodeRecord (packRecord 0x05#8 (BitVec.ofNat 32 k, a1, a2, a3)) = .ok (.ser b))
  ∧ ∀ (s : State) (b : Bank), s.Running →
    ((b = .mux → s.banks.mux.fits = true) → s.cur.toNat + s.banks.size b ≤ 2048 →
      ∃ t, exec (.ser b) s = .next t
        ∧ (∃ m : Memory, t = ({ s with
            buf := m, cur := BitVec.ofNat 12 (s.cur.toNat + s.banks.size b) } : State).answered .ok
              (BitVec.ofNat 32 (s.banks.size b)) 0#32)
        ∧ ∀ a, bufByte t a =
            if s.cur.toNat ≤ a ∧ a < s.cur.toNat + s.banks.size b then (s.banks.enc b).getD (a - s.cur.toNat) 0#8
            else bufByte s a)
    ∧ ((b = .mux ∧ s.banks.mux.fits = false) → exec (.ser b) s = .next (s.answered .invalidArgument 0#32 0#32))
    ∧ ((b = .mux → s.banks.mux.fits = true) → 2048 < s.cur.toNat + s.banks.size b →
      exec (.ser b) s = .next (s.answered .bufferOverrun 0#32 0#32))

/-- R117, R120, R62, R64: `DES`, opcode 0x06 with a bank selector of R85, loads one bank from the bytes at the cursor,
advances the cursor by the structure's size, which is the size of the bank loaded, answers it, and changes no other bank
and no byte. A prefix or a structure that would pass the end is BufferOverrun; bank and cursor keep their values. -/
def Obligations.DesLoadsOneBank : Prop :=
  (∀ (k : Nat) (b : Bank) (a1 a2 a3 : Word), banksBySelector[k]? = some b →
    decodeRecord (packRecord 0x06#8 (BitVec.ofNat 32 k, a1, a2, a3)) = .ok (.des b))
  ∧ ∀ (s : State) (b : Bank) (n : Nat), s.Running → sizeFromPrefix b (memRead s s.cur.toNat b.prefixBytes) = n →
    (s.cur.toNat + b.prefixBytes ≤ 2048 → s.cur.toNat + n ≤ 2048 →
      ∃ B : Banks, exec (.des b) s = .next (({ s with
          banks := B, cur := BitVec.ofNat 12 (s.cur.toNat + n) } : State).answered .ok (BitVec.ofNat 32 n) 0#32)
        ∧ B = s.banks.load b (memRead s s.cur.toNat n) ∧ B.size b = n
        ∧ ∀ r : Reg, r.bank ≠ b → B.read r = s.banks.read r)
    ∧ ((2048 < s.cur.toNat + b.prefixBytes ∨ 2048 < s.cur.toNat + n) →
      exec (.des b) s = .next (s.answered .bufferOverrun 0#32 0#32))

/-- R122, R95, R160: `DISP`, opcode 0x07, names `MHT` (selector 0) or `MUX` (3). `DISP MHT` answers bank 1 for BEACON, 2
for UNICAST, 0xFF for every other header type; `DISP MUX` answers the bank of the IE type (forms 0 to 2) and the payload
length (forms 1 to 3). The seven codes are those of the configuration (log entry 5). `DISP` changes no state. -/
def Obligations.DispSelectsNextBank : Prop :=
  (∀ a1 a2 a3 : Word, decodeRecord (packRecord 0x07#8 (0#32, a1, a2, a3)) = .ok (.disp .mht)
    ∧ decodeRecord (packRecord 0x07#8 (3#32, a1, a2, a3)) = .ok (.disp .mux))
  ∧ ∀ s : State, s.Running →
    exec (.disp .mht) s = .next (s.answered .ok
      (if s.banks.mht.headerType.toNat = 1 then 1#32 else if s.banks.mht.headerType.toNat = 2 then 2#32 else 255#32)
      0xFFFFFFFF#32)
    ∧ exec (.disp .mux) s = .next (s.answered .ok
      (if s.banks.mux.macExt.toNat = 3 then 255#32
       else match s.banks.mux.ieType.toNat with
         | 8 => 4#32 | 9 => 5#32 | 10 => 6#32 | 11 => 7#32 | 19 => 8#32 | 20 => 9#32 | 28 => 10#32 | _ => 255#32)
      (if s.banks.mux.macExt.toNat = 0 then 0xFFFFFFFF#32 else BitVec.ofNat 32 s.banks.mux.length.toNat))

/-- R123: `SEEK`, opcode 0x08, moves the cursor to any position up to `BUF_SIZE` and refuses any other. -/
def Obligations.SeekMovesCursor : Prop :=
  (∀ addr a1 a2 a3 : Word, decodeRecord (packRecord 0x08#8 (addr, a1, a2, a3)) = .ok (.seek addr))
  ∧ ∀ (s : State) (addr : Word), s.Running →
    (addr.toNat ≤ 2048 → exec (.seek addr) s =
      .next (({ s with cur := BitVec.ofNat 12 addr.toNat } : State).answered .ok 0#32 0#32))
    ∧ (2048 < addr.toNat → exec (.seek addr) s = .next (s.answered .bufferOverrun 0#32 0#32))

/-- R124: `TELL`, opcode 0x09, answers the cursor, zero-extended, and changes no state. -/
def Obligations.TellAnswersCursor : Prop :=
  (∀ a0 a1 a2 a3 : Word, decodeRecord (packRecord 0x09#8 (a0, a1, a2, a3)) = .ok .tell)
  ∧ ∀ s : State, s.Running → exec .tell s = .next (s.answered .ok (BitVec.ofNat 32 s.cur.toNat) 0#32)

/-- R125: `BUFWR`, opcode 0x0A, stores one byte at its address and nothing else; it checks the address before the byte. -/
def Obligations.BufwrStoresOneByte : Prop :=
  (∀ addr value a2 a3 : Word, decodeRecord (packRecord 0x0A#8 (addr, value, a2, a3)) = .ok (.bufwr addr value))
  ∧ ∀ (s : State) (addr value : Word), s.Running →
    (addr.toNat < 2048 → value.toNat ≤ 255 →
      ∃ t, exec (.bufwr addr value) s = .next t
        ∧ (∃ m : Memory, t = ({ s with buf := m } : State).answered .ok 0#32 0#32)
        ∧ ∀ a, bufByte t a = if a = addr.toNat then BitVec.ofNat 8 value.toNat else bufByte s a)
    ∧ (2048 ≤ addr.toNat → exec (.bufwr addr value) s = .next (s.answered .bufferOverrun 0#32 0#32))
    ∧ (addr.toNat < 2048 → 255 < value.toNat →
      exec (.bufwr addr value) s = .next (s.answered .invalidArgument 0#32 0#32))

/-- R126: `BUFRD`, opcode 0x0B, answers the byte at its address, zero-extended, and changes no state. -/
def Obligations.BufrdAnswersByte : Prop :=
  (∀ addr a1 a2 a3 : Word, decodeRecord (packRecord 0x0B#8 (addr, a1, a2, a3)) = .ok (.bufrd addr))
  ∧ ∀ (s : State) (addr : Word), s.Running →
    (addr.toNat < 2048 →
      exec (.bufrd addr) s = .next (s.answered .ok (BitVec.ofNat 32 (bufByte s addr.toNat).toNat) 0#32))
    ∧ (2048 ≤ addr.toNat → exec (.bufrd addr) s = .next (s.answered .bufferOverrun 0#32 0#32))

/-- R130, R131, the round-trip law: `SER` of a bank, then `SEEK` back, then `DES` of the same bank, from any running
state in which the structure fits. `SIZE`, `SER`, `DES` and the cursor's two advances all give `size_B` (R131), and the
bank ends as its wire form shows it, `vis_B`; the other banks and every byte outside the structure are as before. -/
def Obligations.SerSeekDesRoundTrip : Prop :=
  ∀ (s : State) (b : Bank), s.Running → (b = .mux → s.banks.mux.fits = true) →
    s.cur.toNat + s.banks.size b ≤ 2048 →
    ∃ t u v, exec (.ser b) s = .next t ∧ exec (.seek (BitVec.ofNat 32 s.cur.toNat)) t = .next u
      ∧ exec (.des b) u = .next v
      ∧ v.responses = s.responses ++ [⟨.ok, BitVec.ofNat 32 (s.banks.size b), 0#32⟩, ⟨.ok, 0#32, 0#32⟩,
          ⟨.ok, BitVec.ofNat 32 (s.banks.size b), 0#32⟩]
      ∧ v.banks = s.banks.visible b
      ∧ t.cur.toNat = s.cur.toNat + s.banks.size b ∧ u.cur = s.cur ∧ v.cur.toNat = s.cur.toNat + s.banks.size b
      ∧ exec (.size b) s = .next (s.answered .ok (BitVec.ofNat 32 (s.banks.size b)) 0#32)
      ∧ ∀ a, ¬ (s.cur.toNat ≤ a ∧ a < s.cur.toNat + s.banks.size b) → bufByte v a = bufByte s a

/-- R131: the number of bytes `enc_B` yields is `size_B`, the size found in the first bytes of what was written is `size_B`,
whatever follows, and loading them gives a bank of that size. -/
def Obligations.SizeIsOneNumber : Prop :=
  ∀ (B : Banks) (b : Bank) (rest : List Byte),
    (B.enc b).length = B.size b
    ∧ sizeFromPrefix b ((B.enc b ++ rest).take b.prefixBytes) = B.size b
    ∧ ∀ C : Banks, (C.load b (B.enc b ++ rest)).size b = B.size b

/-! ### The wire rows as instructions -/

/-- A wire row of a structure without optional fields, standing at the cursor: its bank is loaded whole, the cursor advances
by its size, the size is the answer (R117, R143, R148, R153, R224, R228; reading a wire row as the rest of its `DES` is the
model's choice, log entry 2). -/
def Obligations.FixedStructureLoadsItsBank : Prop :=
  ∀ s : State, s.Running →
    (∀ w : MhtBank, s.cur.toNat + 1 ≤ 2048 → exec (.mht w) s = .next (({ s with
      banks := { s.banks with mht := w }, cur := BitVec.ofNat 12 (s.cur.toNat + 1) } : State).answered .ok 1#32 0#32))
    ∧ (∀ w : BhBank, s.cur.toNat + 7 ≤ 2048 → exec (.bh w) s = .next (({ s with
      banks := { s.banks with bh := w }, cur := BitVec.ofNat 12 (s.cur.toNat + 7) } : State).answered .ok 7#32 0#32))
    ∧ (∀ w : UhBank, s.cur.toNat + 10 ≤ 2048 → exec (.uh w) s = .next (({ s with
      banks := { s.banks with uh := w }, cur := BitVec.ofNat 12 (s.cur.toNat + 10) } : State).answered .ok 10#32 0#32))
    ∧ (∀ w : RdcBank, s.cur.toNat + 7 ≤ 2048 → exec (.rdc w) s = .next (({ s with
      banks := { s.banks with rdc := w }, cur := BitVec.ofNat 12 (s.cur.toNat + 7) } : State).answered .ok 7#32 0#32))
    ∧ (∀ w : AciBank, s.cur.toNat + 1 ≤ 2048 → exec (.aci w) s = .next (({ s with
      banks := { s.banks with aci := w }, cur := BitVec.ofNat 12 (s.cur.toNat + 1) } : State).answered .ok 1#32 0#32))

/-- The four forms of the multiplexing header (R155, R159), as `FixedStructureLoadsItsBank` (log entry 2): form 0 loads
length 0, form 3 a 5-bit type and a 1-bit length. -/
def Obligations.MuxFormLoadsMuxBank : Prop :=
  ∀ s : State, s.Running →
    (∀ t : BitVec 6, s.cur.toNat + 1 ≤ 2048 → exec (.muxForm0 t) s = .next (({ s with
      banks := { s.banks with mux := ⟨0#2, t, 0#16⟩ }, cur := BitVec.ofNat 12 (s.cur.toNat + 1) } : State).answered
        .ok 1#32 0#32))
    ∧ (∀ (t : BitVec 6) (l : BitVec 8), s.cur.toNat + 2 ≤ 2048 → exec (.muxForm1 t l) s = .next (({ s with
      banks := { s.banks with mux := ⟨1#2, t, BitVec.ofNat 16 l.toNat⟩ }
      cur := BitVec.ofNat 12 (s.cur.toNat + 2) } : State).answered .ok 2#32 0#32))
    ∧ (∀ (t : BitVec 6) (l : BitVec 16), s.cur.toNat + 3 ≤ 2048 → exec (.muxForm2 t l) s = .next (({ s with
      banks := { s.banks with mux := ⟨2#2, t, l⟩ }, cur := BitVec.ofNat 12 (s.cur.toNat + 3) } : State).answered
        .ok 3#32 0#32))
    ∧ (∀ (t : BitVec 5) (l : BitVec 1), s.cur.toNat + 1 ≤ 2048 → exec (.muxForm3 t l) s = .next (({ s with
      banks := { s.banks with mux := ⟨3#2, BitVec.ofNat 6 t.toNat, BitVec.ofNat 16 l.toNat⟩ }
      cur := BitVec.ofNat 12 (s.cur.toNat + 1) } : State).answered .ok 1#32 0#32))

/-- The variable-length structures (R173, R183, R194, R203, R213), as `FixedStructureLoadsItsBank` (log entry 2), for rows
an encoding can name: the bank is the row's contents, what no flag carries is 0. -/
def Obligations.VariableStructureLoadsItsBank : Prop :=
  ∀ s : State, s.Running →
    (∀ w : NbBank, (Instr.nb w).wellFormed = true → s.cur.toNat + w.size ≤ 2048 → exec (.nb w) s = .next (({ s with
      banks := { s.banks with nb := w }, cur := BitVec.ofNat 12 (s.cur.toNat + w.size) } : State).answered .ok
        (BitVec.ofNat 32 w.size) 0#32))
    ∧ (∀ w : CbBank, (Instr.cb w).wellFormed = true → s.cur.toNat + w.size ≤ 2048 → exec (.cb w) s = .next (({ s with
      banks := { s.banks with cb := w }, cur := BitVec.ofNat 12 (s.cur.toNat + w.size) } : State).answered .ok
        (BitVec.ofNat 32 w.size) 0#32))
    ∧ (∀ w : AreqBank, (Instr.areq w).wellFormed = true → s.cur.toNat + w.size ≤ 2048 → exec (.areq w) s = .next (({ s with
      banks := { s.banks with areq := w }, cur := BitVec.ofNat 12 (s.cur.toNat + w.size) } : State).answered .ok
        (BitVec.ofNat 32 w.size) 0#32))
    ∧ (∀ w : ArspBank, (Instr.arspReject w).wellFormed = true → s.cur.toNat + 2 ≤ 2048 →
      exec (.arspReject w) s = .next (({ s with
      banks := { s.banks with arsp := w }, cur := BitVec.ofNat 12 (s.cur.toNat + 2) } : State).answered .ok 2#32 0#32))
    ∧ (∀ w : ArspBank, (Instr.arspAccept w).wellFormed = true → s.cur.toNat + w.size ≤ 2048 →
      exec (.arspAccept w) s = .next (({ s with
      banks := { s.banks with arsp := w }, cur := BitVec.ofNat 12 (s.cur.toNat + w.size) } : State).answered .ok
        (BitVec.ofNat 32 w.size) 0#32))
    ∧ (∀ w : RarBank, (Instr.rar w).wellFormed = true → s.cur.toNat + w.size ≤ 2048 → exec (.rar w) s = .next (({ s with
      banks := { s.banks with rar := w }, cur := BitVec.ofNat 12 (s.cur.toNat + w.size) } : State).answered .ok
        (BitVec.ofNat 32 w.size) 0#32))

/-- `DES` of a bank is the meaning of the wire row that the bytes at the cursor are, and BufferOverrun where they are none
because the buffer ends first (R117; the model's choice for wire rows, log entry 2). -/
def Obligations.DesIsTheWireRowAtTheCursor : Prop :=
  ∀ (s : State) (b : Bank),
    match decodeWire b (memRead s s.cur.toNat (2048 - s.cur.toNat)) with
    | some (i, _) => exec (.des b) s = exec i s ∧ i.wellFormed = true ∧ i.wireBank = some b
    | none => s.Running → exec (.des b) s = .next (s.answered .bufferOverrun 0#32 0#32)

/-! ### The channel-table group -/

/-- R241, R242: the default rows of bands 1 and 2, and the constraints the whole table satisfies, open rows included. -/
def Obligations.BandTableIsLegal : Prop :=
  Config.LegalTable Config.bandTable ∧ Config.bandTable .b1 = ⟨1881792#32, 1899072#32, 864#32, 1657#16, 1677#16⟩
  ∧ Config.bandTable .b2 = ⟨1901664#32, 1918944#32, 864#32, 1680#16, 1700#16⟩

/-- R244: `BANDPARM`, opcode 0x12 with the band and `sel` 0 to 4, answers the parameter of a supported band and changes no
state; it needs no `CHINIT`; `sel > 4` is an illegal record. -/
def Obligations.BandparmAnswersParameter : Prop :=
  (∀ band a2 a3 : Word, decodeRecord (packRecord 0x12#8 (band, 0#32, a2, a3)) = .ok (.bandparm band .start)
    ∧ decodeRecord (packRecord 0x12#8 (band, 1#32, a2, a3)) = .ok (.bandparm band .stop)
    ∧ decodeRecord (packRecord 0x12#8 (band, 2#32, a2, a3)) = .ok (.bandparm band .step)
    ∧ decodeRecord (packRecord 0x12#8 (band, 3#32, a2, a3)) = .ok (.bandparm band .nStart)
    ∧ decodeRecord (packRecord 0x12#8 (band, 4#32, a2, a3)) = .ok (.bandparm band .nEnd))
  ∧ (∀ (s : State) (b : Band), s.Running →
    exec (.bandparm (bandWord b) .start) s = .next (s.answered .ok (Config.bandTable b).start 0#32)
    ∧ exec (.bandparm (bandWord b) .stop) s = .next (s.answered .ok (Config.bandTable b).stop 0#32)
    ∧ exec (.bandparm (bandWord b) .step) s = .next (s.answered .ok (Config.bandTable b).step 0#32)
    ∧ exec (.bandparm (bandWord b) .nStart) s =
      .next (s.answered .ok (BitVec.ofNat 32 (Config.bandTable b).nStart.toNat) 0#32)
    ∧ exec (.bandparm (bandWord b) .nEnd) s =
      .next (s.answered .ok (BitVec.ofNat 32 (Config.bandTable b).nEnd.toNat) 0#32))
  ∧ (∀ (s : State) (band : Word) (x : BandSel), s.Running → Unsupported band →
    exec (.bandparm band x) s = .next (s.answered .fatalConfiguration 0#32 0#32))
  ∧ ∀ band sel a2 a3 : Word, 4 < sel.toNat → ∃ why, decodeRecord (packRecord 0x12#8 (band, sel, a2, a3)) = .illegal why

/-- R243, R303: a command that looks up the parameters of an unsupported band raises FatalConfiguration, whatever its other
operands: `FATAL` is set and nothing else changes; `CHVALID` (R247), `SSGET`, `SSSET` and `TLOC` (R305) do not halt. -/
def Obligations.UnsupportedBandIsFatalWhereLookedUp : Prop :=
  ∀ (s : State) (band n : Word) (p : DWord) (slot subslot : Byte) (x : SubslotSel) (c : BitVec 2) (q : BitVec 16)
    (y : TimeSel), s.Running → Unsupported band →
    exec (.cfreq band n) s = .next (s.answered .fatalConfiguration 0#32 0#32)
    ∧ exec (.bin band n) s = .next (s.answered .fatalConfiguration 0#32 0#32)
    ∧ exec (.pwadd band n p) s = .next (s.answered .fatalConfiguration 0#32 0#32)
    ∧ exec (.pwsub band n p) s = .next (s.answered .fatalConfiguration 0#32 0#32)
    ∧ exec (.rssi band n) s = .next (s.answered .fatalConfiguration 0#32 0#32)
    ∧ exec (.chvalid band) s = .next (s.answered .ok 0#32 0#32)
    ∧ exec (.ssget band n slot subslot x) s = .next (s.answered .notInitialized 0#32 0#32)
    ∧ exec (.ssset band n slot subslot c q) s = .next (s.answered .notInitialized 0#32 0#32)
    ∧ exec (.tloc band y p) s = .next (s.answered .notInitialized 0#32 0#32)

/-- R245, R246, R309: `CHINIT`, opcode 0x10, of a supported band builds its channel list: the scaling factor, or 1 with
`WARN`; every subslot FREE, RSSI 0, of `720 div (2·mu)` ticks; the other bands and everything else as before. Of an
unsupported band it is fatal; an illegal scaling factor has set `WARN` by then. -/
def Obligations.ChinitBuildsChannelList : Prop :=
  (∀ band mu a2 a3 : Word, decodeRecord (packRecord 0x10#8 (band, mu, a2, a3)) = .ok (.chinit band mu))
  ∧ (∀ (s : State) (b : Band) (mu : Word), s.Running →
    ∃ (t : State) (c : ChanTable) (m : Nat), exec (.chinit (bandWord b) mu) s = .next t
      ∧ (LegalMu mu → m = mu.toNat) ∧ (¬ LegalMu mu → m = 1)
      ∧ t = ({ s with
          chan := s.chan.set (some c) b
          status := { s.status with warn := s.status.warn || decide (¬ (mu.toNat ∈ [1, 2, 4, 8])) } } : State).answered .ok
            (BitVec.ofNat 32 ((Config.bandTable b).nEnd.toNat - (Config.bandTable b).nStart.toNat + 1))
            (BitVec.ofNat 32 (2 * m))
      ∧ c.mu.toNat = m
      ∧ ∀ k slot j, c.sub k slot j = ⟨.free, 0#16, BitVec.ofNat 16 (720 / (2 * m))⟩)
  ∧ ∀ (s : State) (band mu : Word), s.Running → Unsupported band →
    (LegalMu mu → exec (.chinit band mu) s = .next (s.answered .fatalConfiguration 0#32 0#32))
    ∧ (¬ LegalMu mu → exec (.chinit band mu) s =
      .next (({ s with status := { s.status with warn := true } } : State).answered .fatalConfiguration 0#32 0#32))

/-- R247: `CHVALID`, opcode 0x11, answers the channel list of an initialised band as (count, first number), else (0, 0);
no faults. -/
def Obligations.ChvalidAnswersChannelList : Prop :=
  (∀ band a1 a2 a3 : Word, decodeRecord (packRecord 0x11#8 (band, a1, a2, a3)) = .ok (.chvalid band))
  ∧ ∀ s : State, s.Running →
    (∀ b c, s.chan.get b = some c → exec (.chvalid (bandWord b)) s = .next (s.answered .ok
      (BitVec.ofNat 32 ((Config.bandTable b).nEnd.toNat - (Config.bandTable b).nStart.toNat + 1))
      (BitVec.ofNat 32 (Config.bandTable b).nStart.toNat)))
    ∧ (∀ b, s.chan.get b = none → exec (.chvalid (bandWord b)) s = .next (s.answered .ok 0#32 0#32))
    ∧ ∀ band, Unsupported band → exec (.chvalid band) s = .next (s.answered .ok 0#32 0#32)

/-- R248, R257: `CFREQ`, opcode 0x13, answers `start + (n − nStart)·step`, which fits 32 bits; a channel outside the band is
InvalidArgument. -/
def Obligations.CfreqAnswersCentreFrequency : Prop :=
  (∀ band n a2 a3 : Word, decodeRecord (packRecord 0x13#8 (band, n, a2, a3)) = .ok (.cfreq band n))
  ∧ (∀ (s : State) (band n : Word), s.Running → Unsupported band →
    exec (.cfreq band n) s = .next (s.answered .fatalConfiguration 0#32 0#32))
  ∧ ∀ (s : State) (b : Band) (n : Word), s.Running →
    (InBand b n → ∃ f : Word, exec (.cfreq (bandWord b) n) s = .next (s.answered .ok f 0#32)
      ∧ f.toNat = (Config.bandTable b).start.toNat
          + (n.toNat - (Config.bandTable b).nStart.toNat) * (Config.bandTable b).step.toNat)
    ∧ (¬ InBand b n → exec (.cfreq (bandWord b) n) s = .next (s.answered .invalidArgument 0#32 0#32))

/-- R249, R241 (c): `CHFREQ`, opcode 0x14, answers the centre frequency of a channel of any supported band, and its
band; a number in no band is InvalidArgument. -/
def Obligations.ChfreqFindsBandOfChannel : Prop :=
  (∀ n a1 a2 a3 : Word, decodeRecord (packRecord 0x14#8 (n, a1, a2, a3)) = .ok (.chfreq n))
  ∧ ∀ (s : State) (n : Word), s.Running →
    (∀ b, InBand b n → ∃ f : Word, exec (.chfreq n) s = .next (s.answered .ok f (bandWord b))
      ∧ f.toNat = (Config.bandTable b).start.toNat
          + (n.toNat - (Config.bandTable b).nStart.toNat) * (Config.bandTable b).step.toNat)
    ∧ ((∀ b, ¬ InBand b n) → exec (.chfreq n) s = .next (s.answered .invalidArgument 0#32 0#32))

/-- R250, R241 (d): `CHID`, opcode 0x15, answers the one channel whose centre frequency it is given, and its band; a
frequency of no channel is InvalidArgument. -/
def Obligations.ChidFindsChannelOfFrequency : Prop :=
  (∀ f a1 a2 a3 : Word, decodeRecord (packRecord 0x15#8 (f, a1, a2, a3)) = .ok (.chid f))
  ∧ ∀ (s : State) (f : Word), s.Running →
    (∀ (b : Band) (k : Nat), k ≤ (Config.bandTable b).nEnd.toNat - (Config.bandTable b).nStart.toNat →
      f.toNat = (Config.bandTable b).start.toNat + k * (Config.bandTable b).step.toNat →
      exec (.chid f) s =
        .next (s.answered .ok (BitVec.ofNat 32 ((Config.bandTable b).nStart.toNat + k)) (bandWord b)))
    ∧ ((∀ (b : Band) (k : Nat), k ≤ (Config.bandTable b).nEnd.toNat - (Config.bandTable b).nStart.toNat →
        f.toNat ≠ (Config.bandTable b).start.toNat + k * (Config.bandTable b).step.toNat) →
      exec (.chid f) s = .next (s.answered .invalidArgument 0#32 0#32))

/-- R251: `BIN`, opcode 0x16, answers `n − nStart`; a channel outside the band is InvalidArgument. -/
def Obligations.BinAnswersIndex : Prop :=
  (∀ band n a2 a3 : Word, decodeRecord (packRecord 0x16#8 (band, n, a2, a3)) = .ok (.bin band n))
  ∧ (∀ (s : State) (band n : Word), s.Running → Unsupported band →
    exec (.bin band n) s = .next (s.answered .fatalConfiguration 0#32 0#32))
  ∧ ∀ (s : State) (b : Band) (n : Word), s.Running →
    (InBand b n → exec (.bin (bandWord b) n) s =
      .next (s.answered .ok (BitVec.ofNat 32 (n.toNat - (Config.bandTable b).nStart.toNat)) 0#32))
    ∧ (¬ InBand b n → exec (.bin (bandWord b) n) s = .next (s.answered .invalidArgument 0#32 0#32))

/-- R252: `SSGET`, opcode 0x17 with `slot << 8 | subslot` in `A2` and `sel` 0 to 2 in `A3`, answers the status, the
sign-extended RSSI or the duration of a subslot that exists, and changes no state. -/
def Obligations.SsgetAnswersSubslotField : Prop :=
  (∀ (band n : Word) (slot subslot : Byte),
    decodeRecord (packRecord 0x17#8 (band, n, 0#16 ++ slot ++ subslot, 0#32)) = .ok (.ssget band n slot subslot .status)
    ∧ decodeRecord (packRecord 0x17#8 (band, n, 0#16 ++ slot ++ subslot, 1#32)) = .ok (.ssget band n slot subslot .rssi)
    ∧ decodeRecord (packRecord 0x17#8 (band, n, 0#16 ++ slot ++ subslot, 2#32)) =
      .ok (.ssget band n slot subslot .duration))
  ∧ ∀ (s : State) (b : Band) (c : ChanTable) (n : Word) (slot subslot : Byte), s.Running → s.chan.get b = some c →
    InBand b n → slot.toNat < 24 → subslot.toNat < 2 * c.mu.toNat →
    exec (.ssget (bandWord b) n slot subslot .status) s = .next (s.answered .ok
      (BitVec.ofNat 32 (c.sub (channelIndex b n) slot.toNat subslot.toNat).status.code.toNat) 0#32)
    ∧ exec (.ssget (bandWord b) n slot subslot .rssi) s = .next (s.answered .ok
      (BitVec.ofInt 32 (c.sub (channelIndex b n) slot.toNat subslot.toNat).rssi.toInt) 0#32)
    ∧ exec (.ssget (bandWord b) n slot subslot .duration) s = .next (s.answered .ok
      (BitVec.ofNat 32 (c.sub (channelIndex b n) slot.toNat subslot.toNat).duration.toNat) 0#32)

/-- R253: `SSSET`, opcode 0x18 with `slot << 8 | subslot` in `A2` and `status << 16 | rssi` in `A3`, writes status and
RSSI of one subslot, keeps its duration, and leaves every other subslot, every other band and everything else as it was;
status code 3 is InvalidArgument. The table's canonical form is a premise; every step keeps it (`StepKeepsInvariant`). -/
def Obligations.SssetWritesOneSubslot : Prop :=
  (∀ (band n : Word) (slot subslot : Byte) (code : BitVec 2) (rssi : BitVec 16),
    decodeRecord (packRecord 0x18#8 (band, n, 0#16 ++ slot ++ subslot, 0#14 ++ code ++ rssi)) =
      .ok (.ssset band n slot subslot code rssi))
  ∧ ∀ (s : State) (b : Band) (c : ChanTable) (n : Word) (slot subslot : Byte) (code : BitVec 2) (rssi : BitVec 16),
    s.Running → s.chan.get b = some c → c.WellFormed (Config.bandTable b) →
    InBand b n → slot.toNat < 24 → subslot.toNat < 2 * c.mu.toNat →
    (code.toNat ≤ 2 → ∃ (d : ChanTable) (st : SlotStatus), exec (.ssset (bandWord b) n slot subslot code rssi) s =
        .next (({ s with chan := s.chan.set (some d) b } : State).answered .ok 0#32 0#32)
      ∧ st.code = code ∧ d.mu = c.mu
      ∧ ∀ k v j, v < 24 → j < 16 → d.sub k v j =
          if k = channelIndex b n ∧ v = slot.toNat ∧ j = subslot.toNat
          then ⟨st, rssi, (c.sub (channelIndex b n) slot.toNat subslot.toNat).duration⟩
          else c.sub k v j)
    ∧ (code.toNat = 3 → exec (.ssset (bandWord b) n slot subslot code rssi) s =
      .next (s.answered .invalidArgument 0#32 0#32))

/-- R255, R305: the checks `SSGET` and `SSSET` share: a band without a channel list is NotInitialized; then a channel, a
slot or a subslot that does not exist is InvalidArgument. -/
def Obligations.SubslotChecksInOrder : Prop :=
  ∀ (s : State) (b : Band) (n : Word) (slot subslot : Byte) (x : SubslotSel) (code : BitVec 2) (rssi : BitVec 16),
    s.Running →
    (s.chan.get b = none →
      exec (.ssget (bandWord b) n slot subslot x) s = .next (s.answered .notInitialized 0#32 0#32)
      ∧ exec (.ssset (bandWord b) n slot subslot code rssi) s = .next (s.answered .notInitialized 0#32 0#32))
    ∧ ∀ c : ChanTable, s.chan.get b = some c →
      ¬ (InBand b n ∧ slot.toNat < 24 ∧ subslot.toNat < 2 * c.mu.toNat) →
      exec (.ssget (bandWord b) n slot subslot x) s = .next (s.answered .invalidArgument 0#32 0#32)
      ∧ exec (.ssset (bandWord b) n slot subslot code rssi) s = .next (s.answered .invalidArgument 0#32 0#32)

/-- R254: `TLOC`, opcode 0x19 with `sel` 0 to 4 in `A1` and the tick in `A2` and `A3`, locates the tick in the frame
structure of an initialised band; a band that is not is NotInitialized. -/
def Obligations.TlocLocatesTick : Prop :=
  (∀ band hi lo : Word, decodeRecord (packRecord 0x19#8 (band, 0#32, hi, lo)) = .ok (.tloc band .frame (hi ++ lo))
    ∧ decodeRecord (packRecord 0x19#8 (band, 1#32, hi, lo)) = .ok (.tloc band .slot (hi ++ lo))
    ∧ decodeRecord (packRecord 0x19#8 (band, 2#32, hi, lo)) = .ok (.tloc band .subslot (hi ++ lo))
    ∧ decodeRecord (packRecord 0x19#8 (band, 3#32, hi, lo)) = .ok (.tloc band .offset (hi ++ lo))
    ∧ decodeRecord (packRecord 0x19#8 (band, 4#32, hi, lo)) = .ok (.tloc band .sfn (hi ++ lo)))
  ∧ ∀ (s : State) (b : Band) (t : DWord), s.Running →
    (∀ c : ChanTable, s.chan.get b = some c →
      exec (.tloc (bandWord b) .frame t) s = .next (s.answered .ok (BitVec.ofNat 32 (t.toNat / 17280)) 0#32)
      ∧ exec (.tloc (bandWord b) .slot t) s = .next (s.answered .ok (BitVec.ofNat 32 (t.toNat % 17280 / 720)) 0#32)
      ∧ exec (.tloc (bandWord b) .subslot t) s =
        .next (s.answered .ok (BitVec.ofNat 32 (t.toNat % 720 / (720 / (2 * c.mu.toNat)))) 0#32)
      ∧ exec (.tloc (bandWord b) .offset t) s =
        .next (s.answered .ok (BitVec.ofNat 32 (t.toNat % (720 / (2 * c.mu.toNat)))) 0#32)
      ∧ exec (.tloc (bandWord b) .sfn t) s = .next (s.answered .ok (BitVec.ofNat 32 (t.toNat / 17280 % 256)) 0#32))
    ∧ (s.chan.get b = none → ∀ x, exec (.tloc (bandWord b) x t) s = .next (s.answered .notInitialized 0#32 0#32))

/-- R256, the laws of the channel group: (a) `CFREQ` answers alike in any two running states; (b) `CHFREQ` then `CHID` give
every channel back, with its band; (c) after `CHINIT` with a legal scaling factor the subslot durations of every slot sum to
the slot; (d) what `TLOC` answers (a frame number below 2^32 whole) puts the tick together again. -/
def Obligations.ChannelLaws : Prop :=
  (∀ (s s' : State) (band n : Word), s.Running → s'.Running →
    ∃ a t t', exec (.cfreq band n) s = .next t ∧ exec (.cfreq band n) s' = .next t'
      ∧ t.responses = s.responses ++ [a] ∧ t'.responses = s'.responses ++ [a])
  ∧ (∀ (s : State) (b : Band) (n : Word), s.Running → InBand b n →
    ∃ f t u, exec (.cfreq (bandWord b) n) s = .next (s.answered .ok f 0#32)
      ∧ exec (.chfreq n) s = .next t ∧ t = s.answered .ok f (bandWord b)
      ∧ exec (.chid f) t = .next u ∧ u = t.answered .ok n (bandWord b))
  ∧ (∀ (s t : State) (b : Band) (c : ChanTable) (mu : Word) (k slot : Nat), s.Running → LegalMu mu →
    exec (.chinit (bandWord b) mu) s = .next t → t.chan.get b = some c →
    ((List.range (2 * mu.toNat)).map fun j => (c.sub k slot j).duration.toNat).sum = 720)
  ∧ ∀ (s : State) (b : Band) (c : ChanTable) (t : DWord), s.Running → s.chan.get b = some c →
    t.toNat / 17280 < 2 ^ 32 →
    ∃ fr sl ss off : Word, exec (.tloc (bandWord b) .frame t) s = .next (s.answered .ok fr 0#32)
      ∧ exec (.tloc (bandWord b) .slot t) s = .next (s.answered .ok sl 0#32)
      ∧ exec (.tloc (bandWord b) .subslot t) s = .next (s.answered .ok ss 0#32)
      ∧ exec (.tloc (bandWord b) .offset t) s = .next (s.answered .ok off 0#32)
      ∧ t.toNat = tickOf fr.toNat sl.toNat ss.toNat off.toNat c.mu.duration
      ∧ sl.toNat < 24 ∧ ss.toNat < 2 * c.mu.toNat ∧ off.toNat < c.mu.duration

/-! ### The spectrum group -/

/-- R282, R281: `PWADD`, opcode 0x20 with the power in `A2` and `A3`, adds to one accumulator, exactly, creates the band's
model if it has none, answers the new value in two words, and leaves every other accumulator, band and everything else as
it was. -/
def Obligations.PwaddAddsToOneAccumulator : Prop :=
  (∀ band n hi lo : Word, decodeRecord (packRecord 0x20#8 (band, n, hi, lo)) = .ok (.pwadd band n (hi ++ lo)))
  ∧ ∀ (s : State) (b : Band) (n : Word) (p : DWord), s.Running →
    (∀ m, s.spec.get b = some m → m.WellFormed (Config.bandTable b)) →
    InBand b n → p.toNat < 2 ^ 63 → accumulator s b (channelIndex b n) + p.toNat < 2 ^ 63 →
    ∃ (m : SpecModel) (v : BitVec 64), exec (.pwadd (bandWord b) n p) s =
        .next (({ s with spec := s.spec.set (some m) b } : State).answered .ok (v.extractLsb' 32 32) (v.extractLsb' 0 32))
      ∧ v.toInt = accumulator s b (channelIndex b n) + p.toNat
      ∧ ∀ k, (m.acc k).toInt = if k = channelIndex b n then v.toInt else accumulator s b k

/-- R283, R281: `PWSUB`, opcode 0x21, subtracts from one accumulator, which may go negative; otherwise as `PWADD`. -/
def Obligations.PwsubSubtractsFromOneAccumulator : Prop :=
  (∀ band n hi lo : Word, decodeRecord (packRecord 0x21#8 (band, n, hi, lo)) = .ok (.pwsub band n (hi ++ lo)))
  ∧ ∀ (s : State) (b : Band) (n : Word) (p : DWord), s.Running →
    (∀ m, s.spec.get b = some m → m.WellFormed (Config.bandTable b)) →
    InBand b n → p.toNat < 2 ^ 63 → -(2 ^ 63) ≤ accumulator s b (channelIndex b n) - p.toNat →
    ∃ (m : SpecModel) (v : BitVec 64), exec (.pwsub (bandWord b) n p) s =
        .next (({ s with spec := s.spec.set (some m) b } : State).answered .ok (v.extractLsb' 32 32) (v.extractLsb' 0 32))
      ∧ v.toInt = accumulator s b (channelIndex b n) - p.toNat
      ∧ ∀ k, (m.acc k).toInt = if k = channelIndex b n then v.toInt else accumulator s b k

/-- R282, R283, R284, R308: a channel outside the band or a power of `2^63` or more is InvalidArgument; an exact result
outside 64 signed bits is AccumulatorOverflow; nothing is created or changed. -/
def Obligations.PowerUpdateRefusals : Prop :=
  ∀ (s : State) (b : Band) (n : Word) (p : DWord), s.Running →
    ((¬ InBand b n ∨ 2 ^ 63 ≤ p.toNat) →
      exec (.pwadd (bandWord b) n p) s = .next (s.answered .invalidArgument 0#32 0#32)
      ∧ exec (.pwsub (bandWord b) n p) s = .next (s.answered .invalidArgument 0#32 0#32))
    ∧ (InBand b n → p.toNat < 2 ^ 63 → 2 ^ 63 ≤ accumulator s b (channelIndex b n) + p.toNat →
      exec (.pwadd (bandWord b) n p) s = .next (s.answered .accumulatorOverflow 0#32 0#32))
    ∧ (InBand b n → p.toNat < 2 ^ 63 → accumulator s b (channelIndex b n) - p.toNat < -(2 ^ 63) →
      exec (.pwsub (bandWord b) n p) s = .next (s.answered .accumulatorOverflow 0#32 0#32))

/-- R285, R287: `W2DBM`, opcode 0x23, answers −150 for a power of 0 or less, else the greatest `v` with `10^(v+150) <=
P^10`, sign-extended; it reads and changes no state. -/
def Obligations.W2dbmRoundsDown : Prop :=
  (∀ a0 a1 a2 a3 : Word, decodeRecord (packRecord 0x23#8 (a0, a1, a2, a3)) = .ok (.w2dbm (a2 ++ a3)))
  ∧ ∀ (s : State) (p : DWord), s.Running →
    ∃ v : Int, exec (.w2dbm p) s = .next (s.answered .ok (BitVec.ofInt 32 v) 0#32)
      ∧ (p.toInt ≤ 0 → v = -150)
      ∧ (0 < p.toInt → ∃ e : Nat, v = e - 150 ∧ 10 ^ e ≤ p.toInt.toNat ^ 10 ∧ p.toInt.toNat ^ 10 < 10 ^ (e + 1))
      ∧ -150 ≤ v ∧ v ≤ 39

/-- R286: `RSSI`, opcode 0x22, answers −150 while the band has no model, else the level of the channel's accumulator; a
channel outside the band is InvalidArgument; no state changes, no model is created. -/
def Obligations.RssiAnswersLevel : Prop :=
  (∀ band n a2 a3 : Word, decodeRecord (packRecord 0x22#8 (band, n, a2, a3)) = .ok (.rssi band n))
  ∧ (∀ (s : State) (band n : Word), s.Running → Unsupported band →
    exec (.rssi band n) s = .next (s.answered .fatalConfiguration 0#32 0#32))
  ∧ ∀ (s : State) (b : Band) (n : Word), s.Running →
    (InBand b n → s.spec.get b = none →
      exec (.rssi (bandWord b) n) s = .next (s.answered .ok (BitVec.ofInt 32 (-150)) 0#32))
    ∧ (∀ m, InBand b n → s.spec.get b = some m →
      exec (.rssi (bandWord b) n) s =
        .next (s.answered .ok (BitVec.ofInt 32 (w2dbm (m.acc (channelIndex b n)).toInt)) 0#32))
    ∧ (¬ InBand b n → exec (.rssi (bandWord b) n) s = .next (s.answered .invalidArgument 0#32 0#32))

/-- R288, the laws of the spectrum group: (a) the level is never below the floor and grows with the power; (b) `PWADD` then
`PWSUB` of the same power, both succeeding, leaves the accumulator as it was, 0 where there was no model; (c) two updates
that succeed in either order give the same accumulators, and an update leaves the accumulators of other channels and bands
alone; (d) `RSSI` equals `W2DBM` of the accumulator whenever
the model exists. -/
def Obligations.SpectrumLaws : Prop :=
  (∀ p q : Int, -(2 ^ 63) ≤ p → q < 2 ^ 63 → p ≤ q → -150 ≤ w2dbm p ∧ w2dbm p ≤ w2dbm q)
  ∧ (∀ (s t u : State) (b : Band) (n : Word) (p : DWord), s.Running →
    (∀ m, s.spec.get b = some m → m.WellFormed (Config.bandTable b)) →
    exec (.pwadd (bandWord b) n p) s = .next t → t.status.lastFault = .ok →
    exec (.pwsub (bandWord b) n p) t = .next u → u.status.lastFault = .ok →
    ∀ c k, accumulator u c k = accumulator s c k)
  ∧ (∀ (s t u t' u' : State) (i j : Instr), s.Running →
    (∀ d m, s.spec.get d = some m → m.WellFormed (Config.bandTable d)) →
    (∃ band n p, i = .pwadd band n p ∨ i = .pwsub band n p) → (∃ band n p, j = .pwadd band n p ∨ j = .pwsub band n p) →
    exec i s = .next t → t.status.lastFault = .ok → exec j t = .next u → u.status.lastFault = .ok →
    exec j s = .next t' → t'.status.lastFault = .ok → exec i t' = .next u' → u'.status.lastFault = .ok →
    ∀ d k, accumulator u d k = accumulator u' d k)
  ∧ (∀ (s t : State) (b : Band) (n : Word) (p : DWord), s.Running →
    (∀ m, s.spec.get b = some m → m.WellFormed (Config.bandTable b)) →
    (exec (.pwadd (bandWord b) n p) s = .next t ∨ exec (.pwsub (bandWord b) n p) s = .next t) →
    ∀ d k, (d ≠ b ∨ k ≠ channelIndex b n) → accumulator t d k = accumulator s d k)
  ∧ ∀ (s : State) (b : Band) (n : Word) (m : SpecModel), s.Running → InBand b n → s.spec.get b = some m →
    exec (.rssi (bandWord b) n) s = exec (.w2dbm (m.acc (channelIndex b n))) s

/-! ### The whole machine -/

/-- R32, R37, R63, R259, R281: which instructions may write what. An instruction of no listed shape leaves that part of the
state as it was. -/
def Obligations.EachPartHasItsWriters : Prop :=
  ∀ (i : Instr) (s t : State), exec i s = .next t →
    ((∀ b, i ≠ .rst b) → (∀ r v, i ≠ .set r v) → (∀ b, i ≠ .des b) → i.wireBank = none → t.banks = s.banks)
    ∧ ((∀ a, i ≠ .seek a) → (∀ b, i ≠ .ser b) → (∀ b, i ≠ .des b) → i.wireBank = none → t.cur = s.cur)
    ∧ ((∀ b, i ≠ .ser b) → (∀ a v, i ≠ .bufwr a v) → ∀ a, bufByte t a = bufByte s a)
    ∧ ((∀ b m, i ≠ .chinit b m) → (∀ b n u v c r, i ≠ .ssset b n u v c r) → t.chan = s.chan)
    ∧ ((∀ b n p, i ≠ .pwadd b n p) → (∀ b n p, i ≠ .pwsub b n p) → t.spec = s.spec)
    ∧ t.inbox = s.inbox ∧ t.epoch = s.epoch

/-- R35, R19: no instruction reads the responses given before or the commands still to come: from two states that differ in
them alone it gives the same answer and states that differ in them alone. -/
def Obligations.HistoryIsNotRead : Prop :=
  ∀ (i : Instr) (s t : State) (q : List HostEvent) (old : List Response), exec i s = .next t →
    ∃ a, t.responses = s.responses ++ [a]
      ∧ exec i { s with inbox := q, responses := old } = .next { t with inbox := q, responses := old ++ [a] }

/-- The reset state satisfies the invariant of the block. -/
def Obligations.ResetSatisfiesInvariant : Prop := State.reset.Inv

/-- Every step keeps the invariant: the cursor in `0..BUF_SIZE` (R37), the buffer, the channel tables and the spectral
models in canonical form with entries only where the block has storage (R39, R42, R44), every subslot with the duration of
its scaling factor, and `STATUS` consistent: halted exactly when the last code is FatalConfiguration or Halted (R36,
R311). -/
def Obligations.StepKeepsInvariant : Prop := ∀ s t : State, s.Inv → step s = .next t → t.Inv

/-! ### Encoding -/

/-- R81, R82: the bytes the encoder writes for a command decode to that command, for every operand. -/
def Obligations.CommandDecodesAsEncoded : Prop :=
  ∀ i : Instr, i.wellFormed = true → i.wireBank = none → (encode i).length = 17 ∧ decode (encode i) = .ok i

/-- A decoded record is a well-formed command with the record's opcode, and its own encoding decodes alike. -/
def Obligations.DecodedCommandIsWellFormed : Prop :=
  ∀ (r : Record) (i : Instr), decodeRecord r = .ok i →
    i.wellFormed = true ∧ i.opcode = some (r.extractLsb' 128 8)
    ∧ ∃ r', encodeRecord i = some r' ∧ decodeRecord r' = .ok i

/-- R142, R147, R152, R158, R172, R182, R193, R202, R212, R223, R227: the bytes of every structure, by the shift formulas
of the rules, from the values `v` of the field registers as `GET` reads them; `bytes13`, `bytes24` and `bytes32` are
`put13`, `put24` and `put32` of R132 on numbers. -/
def Obligations.StructureBytesAreThoseOfTheSpec : Prop :=
  ∀ B : Banks,
    let v : Reg → Nat := fun r => (B.read r).toNat
    (B.enc .mht).map BitVec.toNat =
      [v (.mht .version) <<< 6 ||| v (.mht .security) <<< 4 ||| v (.mht .headerType)]
    ∧ (B.enc .bh).map BitVec.toNat = bytes24 (v (.bh .networkId)) ++ bytes32 (v (.bh .transmitterAddress))
    ∧ (B.enc .uh).map BitVec.toNat =
      [v (.uh .reset) <<< 4 ||| v (.uh .sequenceNumber) / 2 ^ 8, v (.uh .sequenceNumber) % 2 ^ 8]
        ++ bytes32 (v (.uh .receiverAddress)) ++ bytes32 (v (.uh .transmitterAddress))
    ∧ (B.enc .mux).map BitVec.toNat =
      (match v (.mux .macExt) with
        | 0 => [v (.mux .ieType)]
        | 1 => [0x40 ||| v (.mux .ieType), v (.mux .length) % 2 ^ 8]
        | 2 => [0x80 ||| v (.mux .ieType), v (.mux .length) / 2 ^ 8, v (.mux .length) % 2 ^ 8]
        | _ => [0xC0 ||| (v (.mux .length) % 2) <<< 5 ||| v (.mux .ieType) % 2 ^ 5])
    ∧ (B.enc .nb).map BitVec.toNat =
      [v (.nb .txPowerFlag) <<< 4 ||| v (.nb .powerConst) <<< 3 ||| v (.nb .currentFlag) <<< 2
          ||| v (.nb .nbChannels),
        v (.nb .nbPeriod) <<< 4 ||| v (.nb .cbPeriod)]
        ++ bytes13 (v (.nb .nextClusterChannel)) ++ bytes32 (v (.nb .timeToNext))
        ++ (if v (.nb .txPowerFlag) = 1 then [v (.nb .clustersMaxTxPower)] else [])
        ++ (if v (.nb .currentFlag) = 1 then bytes13 (v (.nb .currentClusterChannel)) else [])
        ++ ([v (.nb (.additionalChannel .i0)), v (.nb (.additionalChannel .i1)), v (.nb (.additionalChannel .i2))].take
            (v (.nb .nbChannels))).flatMap bytes13
    ∧ (B.enc .cb).map BitVec.toNat =
      [v (.cb .sfn),
        v (.cb .txPowerFlag) <<< 4 ||| v (.cb .powerConst) <<< 3 ||| v (.cb .foFlag) <<< 2
          ||| v (.cb .nextChannelFlag) <<< 1 ||| v (.cb .timeToNextFlag),
        v (.cb .nbPeriod) <<< 4 ||| v (.cb .cbPeriod),
        v (.cb .countToTrigger) <<< 4 ||| v (.cb .relQuality) <<< 2 ||| v (.cb .minQuality)]
        ++ (if v (.cb .txPowerFlag) = 1 then [v (.cb .clustersMaxTxPower)] else [])
        ++ (if v (.cb .foFlag) = 1 then [v (.cb .frameOffset)] else [])
        ++ (if v (.cb .nextChannelFlag) = 1 then bytes13 (v (.cb .nextClusterChannel)) else [])
        ++ (if v (.cb .timeToNextFlag) = 1 then bytes32 (v (.cb .timeToNext)) else [])
    ∧ (B.enc .areq).map BitVec.toNat =
      [v (.areq .setupCause) <<< 5 ||| v (.areq .numberOfFlows) <<< 2 ||| v (.areq .powerConst) <<< 1
          ||| v (.areq .ftMode),
        v (.areq .currentFlag) <<< 7,
        v (.areq .harqProcessesTx) <<< 5 ||| v (.areq .maxHarqReTx),
        v (.areq .harqProcessesRx) <<< 5 ||| v (.areq .maxHarqReRx)]
        ++ (flowBytes (v (.areq .numberOfFlows)) fun i => v (.areq (.flowId i)))
        ++ (if v (.areq .ftMode) = 1 then
              [v (.areq .nbPeriod) <<< 4 ||| v (.areq .cbPeriod)]
                ++ bytes13 (v (.areq .nextClusterChannel)) ++ bytes32 (v (.areq .timeToNext))
                ++ (if v (.areq .currentFlag) = 1 then bytes13 (v (.areq .currentClusterChannel)) else [])
            else [])
    ∧ (B.enc .arsp).map BitVec.toNat =
      [v (.arsp .ackNack) <<< 7 ||| v (.arsp .harqMod) <<< 5 ||| v (.arsp .numberOfFlows) <<< 2
          ||| v (.arsp .group) <<< 1]
        ++ (if v (.arsp .ackNack) = 0 then [v (.arsp .rejectCause) <<< 4 ||| v (.arsp .rejectTime)]
            else
              (if v (.arsp .harqMod) = 1 then
                [v (.arsp .harqProcessesRx) <<< 5 ||| v (.arsp .maxHarqReRx),
                  v (.arsp .harqProcessesTx) <<< 5 ||| v (.arsp .maxHarqReTx)]
              else [])
                ++ (flowBytes (v (.arsp .numberOfFlows)) fun i => v (.arsp (.flowId i)))
                ++ (if v (.arsp .group) = 1 then [v (.arsp .groupId), v (.arsp .resourceTag)] else []))
    ∧ (B.enc .rar).map BitVec.toNat =
      [v (.rar .repeatMode) <<< 3 ||| v (.rar .sfnFlag) <<< 2 ||| v (.rar .channelFlag) <<< 1
          ||| v (.rar .chan2Flag),
        v (.rar .startSubslot),
        v (.rar .lengthType) <<< 7 ||| v (.rar .length),
        v (.rar .maxLenType) <<< 7 ||| v (.rar .maxRachLength) <<< 3 ||| v (.rar .cwMinSig),
        v (.rar .dectDelay) <<< 7 ||| v (.rar .responseWindow) <<< 3 ||| v (.rar .cwMaxSig)]
        ++ (if v (.rar .repeatMode) ≠ 0 then [v (.rar .repetition), v (.rar .validity)] else [])
        ++ (if v (.rar .sfnFlag) = 1 then [v (.rar .sfnOffset)] else [])
        ++ (if v (.rar .channelFlag) = 1 then bytes13 (v (.rar .channel)) else [])
        ++ (if v (.rar .chan2Flag) = 1 then bytes13 (v (.rar .channel2)) else [])
    ∧ (B.enc .rdc).map BitVec.toNat =
      [v (.rdc .numPhyCap) <<< 5 ||| v (.rdc .release),
        v (.rdc .groupAss) <<< 5 ||| v (.rdc .paging) <<< 4 ||| v (.rdc .operatingModes) <<< 2
          ||| v (.rdc .mesh) <<< 1 ||| v (.rdc .schedul),
        v (.rdc .macSecurity) <<< 5 ||| v (.rdc .dlcServiceType) <<< 2,
        v (.rdc .rdPowerClass) <<< 4 ||| v (.rdc .maxNssRx) <<< 2 ||| v (.rdc .rxForTxDiversity),
        v (.rdc .rxGain) <<< 4 ||| v (.rdc .maxMcs),
        v (.rdc .softBufferSize) <<< 4 ||| v (.rdc .numHarqProcesses) <<< 2,
        v (.rdc .harqFeedbackDelay)]
    ∧ (B.enc .aci).map BitVec.toNat =
      [v (.aci .cbM) <<< 7 ||| v (.aci .dlDataReception) <<< 4 ||| v (.aci .ulPeriod)]

/-- The bytes of every wire row, whatever follows them, read back as that row and leave what follows (R91 to R93, R132,
files 41 to 44), for every value of every field the row carries. -/
def Obligations.WireRowDecodesAsEncoded : Prop :=
  ∀ (i : Instr) (b : Bank) (rest : List Byte), i.wellFormed = true → i.wireBank = some b →
    decodeWire b (encode i ++ rest) = some (i, rest)

/-- Records and structures of 95_test_vectors.md sections 2, 4, 5 and 6, and examples of the wire rules, decode to what
they stand for: at least one structure of each of the eleven types, `UH` and the rejecting `ARSP` with reserved bits set
(R91). -/
def Obligations.SampleWordsDecode : Prop :=
  decodeRecord 0x020000000600000009000000050000003F#136 = .ok (.set (.areq (.flowId .i5)) 63#32)
  ∧ decodeRecord 0x180000000100000679000003010002FFB0#136 = .ok (.ssset 1#32 1657#32 3#8 1#8 2#2 (-80#16))
  ∧ decodeRecord 0x20000000010000067900038D7EA4C68000#136 = .ok (.pwadd 1#32 1657#32 1000000000000000#64)
  ∧ decodeRecord 0x3100000000000000000000000000000000#136 = .ok .stget
  ∧ decMht [0x42#8] = { version := 1#2, security := 0#2, headerType := 2#4 }
  ∧ decUh [0x1A#8, 0xBC#8, 0x11#8, 0x22#8, 0x33#8, 0x44#8, 0x55#8, 0x66#8, 0x77#8, 0x88#8] =
    { reset := 1#1, sequenceNumber := 0xABC#12, receiverAddress := 0x11223344#32, transmitterAddress := 0x55667788#32 }
  ∧ decMux [0x93#8, 0x01#8, 0x23#8] = { macExt := 2#2, ieType := 19#6, length := 291#16 }
  ∧ decodeWire .bh [0x12#8, 0x34#8, 0x56#8, 0xDE#8, 0xAD#8, 0xBE#8, 0xEF#8] =
    some (.bh { networkId := 0x123456#24, transmitterAddress := 0xDEADBEEF#32 }, [])
  ∧ decodeWire .uh [0xFA#8, 0xBC#8, 0x11#8, 0x22#8, 0x33#8, 0x44#8, 0x55#8, 0x66#8, 0x77#8, 0x88#8] =
    some (.uh {
      reset := 1#1, sequenceNumber := 0xABC#12, receiverAddress := 0x11223344#32,
      transmitterAddress := 0x55667788#32 }, [])
  ∧ decodeWire .nb [0x16#8, 0x23#8, 0x06#8, 0x79#8, 0x00#8, 0x01#8, 0x00#8, 0x00#8, 0x0A#8, 0x06#8, 0x7A#8, 0x06#8,
      0x7B#8, 0x06#8, 0x8D#8] =
    some (.nb {
      txPowerFlag := 1#1, currentFlag := 1#1, nbChannels := 2#2, nbPeriod := 2#4, cbPeriod := 3#4,
      nextClusterChannel := 1657#13, timeToNext := 0x10000#32, clustersMaxTxPower := 10#4,
      currentClusterChannel := 1658#13, additionalChannel := ⟨1659#13, 1677#13, 0#13⟩ }, [])
  ∧ decodeWire .cb [0x2A#8, 0x0F#8, 0x12#8, 0x36#8, 0x10#8, 0x06#8, 0x7C#8, 0x00#8, 0x01#8, 0x86#8, 0xA0#8] =
    some (.cb {
      sfn := 42#8, powerConst := 1#1, foFlag := 1#1, nextChannelFlag := 1#1, timeToNextFlag := 1#1,
      nbPeriod := 1#4, cbPeriod := 2#4, countToTrigger := 3#4, relQuality := 1#2, minQuality := 2#2,
      frameOffset := 16#8, nextClusterChannel := 1660#13, timeToNext := 0x186A0#32 }, [])
  ∧ decodeWire .areq [0x09#8, 0x80#8, 0x6A#8, 0x6A#8, 0x01#8, 0x03#8, 0x23#8, 0x06#8, 0x79#8, 0x12#8, 0x34#8,
      0x56#8, 0x78#8, 0x06#8, 0x7A#8] =
    some (.areq {
      numberOfFlows := 2#3, ftMode := 1#1, currentFlag := 1#1, harqProcessesTx := 3#3,
      maxHarqReTx := 10#5, harqProcessesRx := 3#3, maxHarqReRx := 10#5, flowId := ⟨1#6, 3#6, 0#6, 0#6, 0#6, 0#6⟩,
      nbPeriod := 2#4, cbPeriod := 3#4, nextClusterChannel := 1657#13, timeToNext := 0x12345678#32,
      currentClusterChannel := 1658#13 }, [])
  ∧ decodeWire .arsp [0x41#8, 0x25#8] =
    some (.arspReject { rejectCause := 2#4, rejectTime := 5#4 }, [])
  ∧ decodeWire .arsp [0xA6#8, 0x45#8, 0x45#8, 0x03#8, 0x11#8, 0x22#8] =
    some (.arspAccept {
      ackNack := 1#1, harqMod := 1#1, numberOfFlows := 1#3, group := 1#1, harqProcessesRx := 2#3,
      maxHarqReRx := 5#5, harqProcessesTx := 2#3, maxHarqReTx := 5#5, flowId := ⟨3#6, 0#6, 0#6, 0#6, 0#6, 0#6⟩,
      groupId := 17#7, resourceTag := 34#7 }, [])
  ∧ decodeWire .rar [0x0E#8, 0x04#8, 0x08#8, 0x11#8, 0x2B#8, 0x0A#8, 0x14#8, 0x07#8, 0x06#8, 0x79#8] =
    some (.rar {
      repeatMode := 1#2, sfnFlag := 1#1, channelFlag := 1#1, startSubslot := 4#8, length := 8#7,
      maxRachLength := 2#4, cwMinSig := 1#3, responseWindow := 5#4, cwMaxSig := 3#3, repetition := 10#8,
      validity := 20#8, sfnOffset := 7#8, channel := 1657#13 }, [])
  ∧ decodeWire .rdc [0x01#8, 0x19#8, 0x28#8, 0x31#8, 0x54#8, 0x68#8, 0x03#8] =
    some (.rdc {
      release := 1#5, paging := 1#1, operatingModes := 2#2, schedul := 1#1, macSecurity := 1#3,
      dlcServiceType := 2#3, rdPowerClass := 3#3, rxForTxDiversity := 1#2, rxGain := 5#4, maxMcs := 4#4,
      softBufferSize := 6#4, numHarqProcesses := 2#2, harqFeedbackDelay := 3#4 }, [])
  ∧ decodeWire .aci [0xA5#8] =
    some (.aci { cbM := 1#1, dlDataReception := 2#3, ulPeriod := 5#4 }, [])
end

