-- ==== Sys2Proof/Laws/State.lean ====
section
/-! SUPPORT. One lemma per field per update of the state, so that later proofs unfold no record update. -/

namespace Sys2Proof.Machine

variable (s : State) (r : Response) (c : FaultCode) (a : Nat) (x y : Word)

/-! `respond` -/
@[simp] theorem respond_banks : (respond s r).banks = s.banks := rfl
@[simp] theorem respond_cur : (respond s r).cur = s.cur := rfl
@[simp] theorem respond_buf : (respond s r).buf = s.buf := rfl
@[simp] theorem respond_status : (respond s r).status = s.status := rfl
@[simp] theorem respond_chan : (respond s r).chan = s.chan := rfl
@[simp] theorem respond_spec : (respond s r).spec = s.spec := rfl
@[simp] theorem respond_inbox : (respond s r).inbox = s.inbox := rfl
@[simp] theorem respond_epoch : (respond s r).epoch = s.epoch := rfl
@[simp] theorem respond_responses : (respond s r).responses = s.responses ++ [r] := rfl

/-! `State.answered` -/
@[simp] theorem answered_banks : (s.answered c x y).banks = s.banks := rfl
@[simp] theorem answered_cur : (s.answered c x y).cur = s.cur := rfl
@[simp] theorem answered_buf : (s.answered c x y).buf = s.buf := rfl
@[simp] theorem answered_chan : (s.answered c x y).chan = s.chan := rfl
@[simp] theorem answered_spec : (s.answered c x y).spec = s.spec := rfl
@[simp] theorem answered_inbox : (s.answered c x y).inbox = s.inbox := rfl
@[simp] theorem answered_epoch : (s.answered c x y).epoch = s.epoch := rfl
@[simp] theorem answered_responses : (s.answered c x y).responses = s.responses ++ [⟨c, x, y⟩] := rfl
@[simp] theorem answered_status : (s.answered c x y).status = s.status.record c := rfl

/-! Taking a fault and succeeding are the two answers -/
theorem takeFault_eq_answered : takeFault c s = s.answered c 0#32 0#32 := rfl
theorem succeed_eq_answered : succeed x y s = s.answered .ok x y := rfl

/-! `setCur` -/
@[simp] theorem setCur_banks : (setCur s a).banks = s.banks := rfl
@[simp] theorem setCur_cur : (setCur s a).cur = BitVec.ofNat 12 a := rfl
@[simp] theorem setCur_buf : (setCur s a).buf = s.buf := rfl
@[simp] theorem setCur_status : (setCur s a).status = s.status := rfl
@[simp] theorem setCur_chan : (setCur s a).chan = s.chan := rfl
@[simp] theorem setCur_spec : (setCur s a).spec = s.spec := rfl
@[simp] theorem setCur_inbox : (setCur s a).inbox = s.inbox := rfl
@[simp] theorem setCur_responses : (setCur s a).responses = s.responses := rfl
@[simp] theorem setCur_epoch : (setCur s a).epoch = s.epoch := rfl

/-- A cursor position in range is held exactly. -/
theorem setCur_cur_toNat (h : a ≤ Config.bufSize) : (setCur s a).cur.toNat = a := by
  have : a ≤ 2048 := h
  simp [BitVec.toNat_ofNat]; omega

/-! `clearFaults` -/
@[simp] theorem clearFaults_banks : (clearFaults s).banks = s.banks := rfl
@[simp] theorem clearFaults_cur : (clearFaults s).cur = s.cur := rfl
@[simp] theorem clearFaults_buf : (clearFaults s).buf = s.buf := rfl
@[simp] theorem clearFaults_chan : (clearFaults s).chan = s.chan := rfl
@[simp] theorem clearFaults_spec : (clearFaults s).spec = s.spec := rfl
@[simp] theorem clearFaults_inbox : (clearFaults s).inbox = s.inbox := rfl
@[simp] theorem clearFaults_responses : (clearFaults s).responses = s.responses := rfl
@[simp] theorem clearFaults_epoch : (clearFaults s).epoch = s.epoch := rfl
@[simp] theorem clearFaults_status : (clearFaults s).status = s.status.clearSticky := rfl

/-! `STATUS` -/
variable (t : Status)
@[simp] theorem record_fatal : (t.record c).fatal = (t.fatal || decide (c = .fatalConfiguration)) := rfl
@[simp] theorem record_warn : (t.record c).warn = t.warn := rfl
@[simp] theorem record_faultSeen : (t.record c).faultSeen = (t.faultSeen || decide (c ≠ .ok)) := rfl
@[simp] theorem record_lastFault : (t.record c).lastFault = c := rfl
@[simp] theorem setWarn_fatal : t.setWarn.fatal = t.fatal := rfl
@[simp] theorem setWarn_warn : t.setWarn.warn = true := rfl
@[simp] theorem setWarn_faultSeen : t.setWarn.faultSeen = t.faultSeen := rfl
@[simp] theorem setWarn_lastFault : t.setWarn.lastFault = t.lastFault := rfl
@[simp] theorem clearSticky_fatal : t.clearSticky.fatal = t.fatal := rfl
@[simp] theorem clearSticky_warn : t.clearSticky.warn = false := rfl
@[simp] theorem clearSticky_faultSeen : t.clearSticky.faultSeen = false := rfl
@[simp] theorem clearSticky_lastFault : t.clearSticky.lastFault = t.lastFault := rfl

/-- Bit by bit, the word `STGET` reads (R36). -/
theorem status_word_fields : t.word.extractLsb' 0 1 = bit t.fatal ∧ t.word.extractLsb' 1 1 = bit t.warn
    ∧ t.word.extractLsb' 2 1 = bit t.faultSeen ∧ t.word.extractLsb' 3 5 = 0#5
    ∧ t.word.extractLsb' 8 8 = t.lastFault.code := by
  obtain ⟨f, w, u, c⟩ := t
  cases f <;> cases w <;> cases u <;> cases c <;> decide

/-! One value for each band -/
@[simp] theorem perBand_get_set {α : Type} (p : PerBand α) (v : α) (b b' : Band) :
    (p.set v b).get b' = if b' = b then v else p.get b' := by
  cases b <;> cases b' <;> rfl

@[simp] theorem bandOf_bandWord (b : Band) : bandOf (bandWord b) = some b := by cases b <;> rfl

/-- What `bandOf` answers. -/
theorem bandOf_eq_some (w : Word) (b : Band) : bandOf w = some b ↔ w = bandWord b := by
  constructor
  · intro h
    apply BitVec.eq_of_toNat_eq
    unfold bandOf at h
    split at h <;> cases h <;> assumption
  · rintro rfl; simp

theorem bandOf_eq_none (w : Word) : bandOf w = none ↔ Unsupported w := by
  constructor
  · rintro h b rfl; simp at h
  · intro h
    cases hb : bandOf w with
    | none => rfl
    | some b => exact absurd ((bandOf_eq_some w b).1 hb) (h b)

end Sys2Proof.Machine
end

