-- ==== Sys2Proof/Laws/Commands.lean ====
section
/-! SUPPORT. What each shared operation can answer: the frame around every command, the band and channel lookups, the buffer
side of `SER` and `DES`, the power update. -/

namespace Sys2Proof.Machine

/-! ### The frame around a command (R110, R310) -/

theorem command_halted (body : State → Done) (s : State) (h : s.status.fatal = true) :
    command body s = .next (s.answered .halted 0#32 0#32) := by
  simp [command, h, takeFault_eq_answered]

theorem command_ret {body : State → Done} {s s' : State} {r0 r1 : Word} (h : s.Running) (hb : body s = .ret s' r0 r1) :
    command body s = .next (s'.answered .ok r0 r1) := by
  have h : s.status.fatal = false := h
  simp [command, h, hb, settle, succeed_eq_answered]

theorem command_raised {body : State → Done} {s s' : State} {c : FaultCode} (h : s.Running)
    (hb : body s = .raised s' c) : command body s = .next (s'.answered c 0#32 0#32) := by
  have h : s.status.fatal = false := h
  simp [command, h, hb, settle, takeFault_eq_answered]

/-- Everything a command can answer. -/
theorem command_cases {body : State → Done} {s t : State} (h : command body s = .next t) :
    (s.status.fatal = true ∧ t = s.answered .halted 0#32 0#32)
    ∨ (s.Running ∧ ∃ s' r0 r1, body s = .ret s' r0 r1 ∧ t = s'.answered .ok r0 r1)
    ∨ (s.Running ∧ ∃ s' c, body s = .raised s' c ∧ t = s'.answered c 0#32 0#32) := by
  cases hf : s.status.fatal with
  | true => rw [command_halted body s hf] at h; cases h; exact .inl ⟨rfl, rfl⟩
  | false =>
    cases hb : body s with
    | ret s' r0 r1 => rw [command_ret hf hb] at h; cases h; exact .inr (.inl ⟨hf, s', r0, r1, rfl, rfl⟩)
    | raised s' c => rw [command_raised hf hb] at h; cases h; exact .inr (.inr ⟨hf, s', c, rfl, rfl⟩)

/-- A command always gives a next state. -/
theorem command_total (body : State → Done) (s : State) : ∃ t, command body s = .next t := ⟨_, rfl⟩

/-! ### Bands and channels -/

@[simp] theorem withBandParams_bandWord (b : Band) (s : State) (f : Band → BandParams → Done) :
    withBandParams (bandWord b) s f = f b (Config.bandTable b) := by simp [withBandParams]

theorem withBandParams_unsupported (band : Word) (s : State) (f : Band → BandParams → Done) (h : Unsupported band) :
    withBandParams band s f = .raised s .fatalConfiguration := by
  simp [withBandParams, (bandOf_eq_none band).2 h]

/-- A band operand names a band or none. -/
theorem band_cases (band : Word) : (∃ b, band = bandWord b) ∨ Unsupported band := by
  by_cases h : ∃ b, band = bandWord b
  · exact .inl h
  · exact .inr fun b hb => h ⟨b, hb⟩

theorem contains_iff (b : Band) (n : Word) : BandParams.contains (Config.bandTable b) n.toNat = true ↔ InBand b n := by
  simp [BandParams.contains, InBand]

theorem withChannel_in (b : Band) (n : Word) (s : State) (f : Nat → Done) (h : InBand b n) :
    withChannel (Config.bandTable b) n s f = f (channelIndex b n) := by
  simp [withChannel, (contains_iff b n).2 h, channelIndex]

theorem withChannel_out (b : Band) (n : Word) (s : State) (f : Nat → Done) (h : ¬ InBand b n) :
    withChannel (Config.bandTable b) n s f = .raised s .invalidArgument := by
  have : ¬ BandParams.contains (Config.bandTable b) n.toNat = true := fun hc => h ((contains_iff b n).1 hc)
  simp [withChannel, this]

theorem channelIndex_le (b : Band) (n : Word) (h : InBand b n) : channelIndex b n ≤ (Config.bandTable b).lastIndex := by
  unfold channelIndex BandParams.lastIndex; unfold InBand at h; omega

theorem withChanTable_init (b : Band) (s : State) (t : ChanTable) (f : Band → ChanTable → Done)
    (h : s.chan.get b = some t) : withChanTable (bandWord b) s f = f b t := by simp [withChanTable, h]

theorem withChanTable_none (b : Band) (s : State) (f : Band → ChanTable → Done) (h : s.chan.get b = none) :
    withChanTable (bandWord b) s f = .raised s .notInitialized := by simp [withChanTable, h]

theorem withChanTable_unsupported (band : Word) (s : State) (f : Band → ChanTable → Done) (h : Unsupported band) :
    withChanTable band s f = .raised s .notInitialized := by simp [withChanTable, (bandOf_eq_none band).2 h]

theorem withSubslot_ok (b : Band) (n : Word) (slot subslot : Byte) (s : State) (t : ChanTable)
    (f : Band → ChanTable → Nat → Done) (ht : s.chan.get b = some t) (hn : InBand b n)
    (hs : slot.toNat < Config.slotsPerFrame) (hj : subslot.toNat < t.mu.subslots) :
    withSubslot (bandWord b) n slot subslot s f = f b t (channelIndex b n) := by
  rw [withSubslot, withChanTable_init b s t _ ht, withChannel_in b n s _ hn, if_neg (by omega), if_neg (by omega)]

theorem withSubslot_bad (b : Band) (n : Word) (slot subslot : Byte) (s : State) (t : ChanTable)
    (f : Band → ChanTable → Nat → Done) (ht : s.chan.get b = some t)
    (h : ¬ (InBand b n ∧ slot.toNat < Config.slotsPerFrame ∧ subslot.toNat < t.mu.subslots)) :
    withSubslot (bandWord b) n slot subslot s f = .raised s .invalidArgument := by
  rw [withSubslot, withChanTable_init b s t _ ht]
  by_cases hn : InBand b n
  · rw [withChannel_in b n s _ hn]
    split
    · rfl
    · split
      · rfl
      · exact absurd ⟨hn, by omega, by omega⟩ h
  · exact withChannel_out b n s _ hn

/-! ### The buffer side of the codec -/

theorem finishLoad_fits (n : Nat) (B : Banks) (s : State) (h : s.cur.toNat + n ≤ Config.bufSize) :
    finishLoad n B s = .ret (setCur { s with banks := B } (s.cur.toNat + n)) (BitVec.ofNat 32 n) 0#32 := by
  rw [finishLoad, if_neg (by omega)]

theorem finishLoad_overrun (n : Nat) (B : Banks) (s : State) (h : Config.bufSize < s.cur.toNat + n) :
    finishLoad n B s = .raised s .bufferOverrun := by rw [finishLoad, if_pos h]

theorem storeToBuffer_fits (b : Bank) (s : State) (hm : b = .mux → s.banks.mux.fits = true)
    (h : s.cur.toNat + s.banks.size b ≤ Config.bufSize) :
    storeToBuffer b s = .ret
      (setCur { s with buf := memWrite s.buf s.cur.toNat (s.banks.enc b) } (s.cur.toNat + s.banks.size b))
      (BitVec.ofNat 32 (s.banks.size b)) 0#32 := by
  rw [storeToBuffer, if_neg (by rintro ⟨h1, h2⟩; simp [hm h1] at h2)]
  simp only
  rw [if_neg (by omega)]

theorem storeToBuffer_overrun (b : Bank) (s : State) (hm : b = .mux → s.banks.mux.fits = true)
    (h : Config.bufSize < s.cur.toNat + s.banks.size b) : storeToBuffer b s = .raised s .bufferOverrun := by
  rw [storeToBuffer, if_neg (by rintro ⟨h1, h2⟩; simp [hm h1] at h2)]
  simp only
  rw [if_pos h]

theorem storeToBuffer_misfit (s : State) (h : s.banks.mux.fits = false) :
    storeToBuffer .mux s = .raised s .invalidArgument := by simp [storeToBuffer, h]

theorem loadFromBuffer_prefix (b : Bank) (s : State) (h : Config.bufSize < s.cur.toNat + b.prefixBytes) :
    loadFromBuffer b s = .raised s .bufferOverrun := by rw [loadFromBuffer, if_pos h]

theorem loadFromBuffer_go (b : Bank) (s : State) (n : Nat) (h : s.cur.toNat + b.prefixBytes ≤ Config.bufSize)
    (hn : sizeFromPrefix b (memRead s s.cur.toNat b.prefixBytes) = n) :
    loadFromBuffer b s = finishLoad n (s.banks.load b (memRead s s.cur.toNat n)) s := by
  subst hn; rw [loadFromBuffer, if_neg (by omega)]

/-! ### The power update (R282 to R284) -/

theorem updatePower_ok (b : Band) (n : Word) (p : DWord) (f : Int → Int → Int) (s : State) (a : Int)
    (hn : InBand b n) (hp : p.toNat < 2 ^ 63) (ha : f (accumulator s b (channelIndex b n)) p.toNat = a)
    (hr : -(2 ^ 63) ≤ a ∧ a ≤ 2 ^ 63 - 1) :
    updatePower (bandWord b) n p f s = .ret (storeAccumulator s b (channelIndex b n) a)
      (highWord (BitVec.ofInt 64 a)) (lowWord (BitVec.ofInt 64 a)) := by
  subst ha
  rw [updatePower, withBandParams_bandWord, withChannel_in b n s _ hn, if_neg (by omega)]
  simp only
  rw [if_neg (by omega)]

theorem updatePower_overflow (b : Band) (n : Word) (p : DWord) (f : Int → Int → Int) (s : State)
    (hn : InBand b n) (hp : p.toNat < 2 ^ 63)
    (hr : f (accumulator s b (channelIndex b n)) p.toNat < -(2 ^ 63)
      ∨ 2 ^ 63 - 1 < f (accumulator s b (channelIndex b n)) p.toNat) :
    updatePower (bandWord b) n p f s = .raised s .accumulatorOverflow := by
  rw [updatePower, withBandParams_bandWord, withChannel_in b n s _ hn, if_neg (by omega)]
  simp only
  rw [if_pos hr]

theorem updatePower_power (b : Band) (n : Word) (p : DWord) (f : Int → Int → Int) (s : State) (h : 2 ^ 63 ≤ p.toNat) :
    updatePower (bandWord b) n p f s = .raised s .invalidArgument := by
  rw [updatePower, withBandParams_bandWord]
  by_cases hn : InBand b n
  · rw [withChannel_in b n s _ hn, if_pos h]
  · exact withChannel_out b n s _ hn

theorem updatePower_channel (b : Band) (n : Word) (p : DWord) (f : Int → Int → Int) (s : State) (h : ¬ InBand b n) :
    updatePower (bandWord b) n p f s = .raised s .invalidArgument := by
  rw [updatePower, withBandParams_bandWord, withChannel_out b n s _ h]

theorem updatePower_unsupported (band n : Word) (p : DWord) (f : Int → Int → Int) (s : State) (h : Unsupported band) :
    updatePower band n p f s = .raised s .fatalConfiguration := by
  rw [updatePower, withBandParams_unsupported band s _ h]

end Sys2Proof.Machine
end

