-- ==== Sys2Proof/Laws/Records.lean ====
section
/-! SUPPORT. The fields of a command record (30_encoding.md R81), selectors and their numbers (R85 to R87), and the frame
around every instruction (40_codec_common.md R110). -/

namespace Sys2Proof

/-! ### Pieces of a concatenation -/

theorem extract_append_high {a b : Nat} (x : BitVec a) (y : BitVec b) : (x ++ y).extractLsb' b a = x := by
  apply BitVec.eq_of_getLsbD_eq
  intro i hi
  simp [BitVec.getLsbD_append, hi]

theorem extract_append_low {a b : Nat} (x : BitVec a) (y : BitVec b) : (x ++ y).extractLsb' 0 b = y := by
  apply BitVec.eq_of_getLsbD_eq
  intro i hi
  simp [BitVec.getLsbD_append, hi]

theorem extract_append_above {a b s n : Nat} (x : BitVec a) (y : BitVec b) (h : b ≤ s) :
    (x ++ y).extractLsb' s n = x.extractLsb' (s - b) n := by
  apply BitVec.eq_of_getLsbD_eq
  intro i hi
  have : ¬ (s + i < b) := by omega
  simp [BitVec.getLsbD_append, hi, this, show s + i - b = s - b + i by omega]

/-! ### A record -/

variable (op : Byte) (a0 a1 a2 a3 : Word)

@[simp] theorem packRecord_op : (packRecord op (a0, a1, a2, a3)).extractLsb' 128 8 = op := by
  show (op ++ a0 ++ a1 ++ a2 ++ a3).extractLsb' 128 8 = op
  rw [extract_append_above _ _ (by omega), extract_append_above _ _ (by omega), extract_append_above _ _ (by omega)]
  exact extract_append_high _ _

@[simp] theorem packRecord_a0 : (packRecord op (a0, a1, a2, a3)).extractLsb' 96 32 = a0 := by
  show (op ++ a0 ++ a1 ++ a2 ++ a3).extractLsb' 96 32 = a0
  rw [extract_append_above _ _ (by omega), extract_append_above _ _ (by omega), extract_append_above _ _ (by omega)]
  exact extract_append_low _ _

@[simp] theorem packRecord_a1 : (packRecord op (a0, a1, a2, a3)).extractLsb' 64 32 = a1 := by
  show (op ++ a0 ++ a1 ++ a2 ++ a3).extractLsb' 64 32 = a1
  rw [extract_append_above _ _ (by omega), extract_append_above _ _ (by omega)]
  exact extract_append_low _ _

@[simp] theorem packRecord_a2 : (packRecord op (a0, a1, a2, a3)).extractLsb' 32 32 = a2 := by
  show (op ++ a0 ++ a1 ++ a2 ++ a3).extractLsb' 32 32 = a2
  rw [extract_append_above _ _ (by omega)]
  exact extract_append_low _ _

@[simp] theorem packRecord_a3 : (packRecord op (a0, a1, a2, a3)).extractLsb' 0 32 = a3 := extract_append_low _ _

/-- The decoder on a record given by its fields. -/
@[simp] theorem decodeRecord_packRecord :
    decodeRecord (packRecord op (a0, a1, a2, a3)) = decodeOperands op a0 a1 a2 a3 := by
  simp only [decodeRecord, packRecord_op, packRecord_a0, packRecord_a1, packRecord_a2, packRecord_a3]

/-! ### Selectors (R85 to R87) -/

@[simp] theorem Idx3.ofIndex_index (i : Idx3) : Idx3.ofIndex i.index = some i := by cases i <;> rfl
@[simp] theorem Idx6.ofIndex_index (i : Idx6) : Idx6.ofIndex i.index = some i := by cases i <;> rfl

@[simp] theorem Bank.ofSel_word (b : Bank) : Bank.ofSel b.word.toNat = some b := by cases b <;> rfl

@[simp] theorem BandSel.ofSel_sel (x : BandSel) : BandSel.ofSel x.sel.toNat = some x := by cases x <;> rfl
@[simp] theorem SubslotSel.ofSel_sel (x : SubslotSel) : SubslotSel.ofSel x.sel.toNat = some x := by cases x <;> rfl
@[simp] theorem TimeSel.ofSel_sel (x : TimeSel) : TimeSel.ofSel x.sel.toNat = some x := by cases x <;> rfl

/-- The selectors of a register name it. -/
theorem Reg.ofSel_words (r : Reg) : Reg.ofSel r.bank r.fieldWord.toNat r.idxWord.toNat = some r := by
  cases r with
  | nb f => cases f <;> first | rfl | (rename_i i; cases i <;> rfl)
  | areq f => cases f <;> first | rfl | (rename_i i; cases i <;> rfl)
  | arsp f => cases f <;> first | rfl | (rename_i i; cases i <;> rfl)
  | _ f => cases f <;> rfl

/-- A register's field selector is below the number of fields of its bank. -/
theorem Reg.fieldWord_lt (r : Reg) : r.fieldWord.toNat < r.bank.fieldCount := by
  cases r with
  | nb f => cases f <;> first | decide | (rename_i i; cases i <;> decide)
  | areq f => cases f <;> first | decide | (rename_i i; cases i <;> decide)
  | arsp f => cases f <;> first | decide | (rename_i i; cases i <;> decide)
  | _ f => cases f <;> decide

namespace Machine

/-! ### The frame around an instruction (R110) -/

/-- Every instruction but `STGET` runs under the checks of R110. -/
theorem exec_isCommand (i : Instr) (h : i ≠ .stget) : ∃ body : State → Done, ∀ s, exec i s = command body s := by
  cases i <;> first | exact absurd rfl h | exact ⟨_, fun _ => rfl⟩

/-- Every instruction gives a next state. -/
theorem exec_total (i : Instr) (s : State) : ∃ t, exec i s = .next t := by
  by_cases h : i = .stget
  · subst h; exact ⟨_, rfl⟩
  · obtain ⟨body, hb⟩ := exec_isCommand i h
    exact hb s ▸ command_total body s

end Machine

end Sys2Proof
end

