-- ==== Sys2Proof/Laws/Tables.lean ====
section
/-! SUPPORT. The channel tables, the accumulators and the power scale: reads after writes, and canonical forms. -/

namespace Sys2Proof.Machine

/-- Different subslots have different keys (R42). -/
theorem subKey_inj (k k' slot slot' j j' : Nat) (hs : slot < 24) (hs' : slot' < 24) (hj : j < 16) (hj' : j' < 16)
    (h : subKey k slot j = subKey k' slot' j') : k = k' ∧ slot = slot' ∧ j = j' := by
  simp only [subKey, Config.slotsPerFrame] at h; omega

theorem Mu.subslots_le (m : Mu) : m.subslots ≤ 16 := by cases m <;> decide

theorem Mu.subslots_pos (m : Mu) : 0 < m.subslots := by cases m <;> decide

/-- The subslot durations of a slot sum to the slot (R256 (c)). -/
theorem Mu.subslots_mul_duration (m : Mu) : m.subslots * m.duration = Config.slotTicks := by cases m <;> decide

theorem Mu.duration_pos (m : Mu) : 0 < m.duration := by cases m <;> decide

theorem freshRec_duration (m : Mu) : (freshRec m).duration.toNat = m.duration := by cases m <;> decide

/-- A subslot record after a write. -/
theorem sub_setSub (t : ChanTable) (k slot j k' slot' j' : Nat) (r : SubRec) (h : cellsRise t.subs = true)
    (hs : slot < 24) (hs' : slot' < 24) (hj : j < 16) (hj' : j' < 16) :
    (t.setSub k slot j r).sub k' slot' j' = if k' = k ∧ slot' = slot ∧ j' = j then r else t.sub k' slot' j' := by
  simp only [ChanTable.sub, ChanTable.setSub]
  rw [readOr_writeOr _ _ _ _ _ h]
  by_cases he : subKey k' slot' j' = subKey k slot j
  · rw [if_pos he, if_pos (subKey_inj _ _ _ _ _ _ hs' hs hj' hj he)]
  · rw [if_neg he, if_neg]; rintro ⟨rfl, rfl, rfl⟩; exact he rfl

@[simp] theorem setSub_mu (t : ChanTable) (k slot j : Nat) (r : SubRec) : (t.setSub k slot j r).mu = t.mu := rfl

/-- The table `CHINIT` builds reads as it should. -/
@[simp] theorem built_sub (m : Mu) (k slot j : Nat) : (ChanTable.built m).sub k slot j = freshRec m := rfl

theorem built_wellFormed (p : BandParams) (m : Mu) : (ChanTable.built m).WellFormed p := by
  refine ⟨rfl, fun c hc => ?_⟩
  cases hc

/-- Every record of a well-formed table has the duration of the scaling factor. -/
theorem sub_duration (p : BandParams) (t : ChanTable) (h : t.WellFormed p) (k slot j : Nat) :
    (t.sub k slot j).duration = (freshRec t.mu).duration := by
  unfold ChanTable.sub readOr
  cases hf : cellsFind t.subs (subKey k slot j) with
  | none => rfl
  | some r =>
    have hmem : ∀ (m : Cells SubRec) (a : Nat), cellsFind m a = some r → (a, r) ∈ m := by
      intro m a hm
      induction m with
      | nil => cases hm
      | cons c m ih =>
        obtain ⟨k, w⟩ := c
        simp only [cellsFind] at hm
        split at hm
        · cases hm; subst a; simp
        · exact List.mem_cons_of_mem _ (ih hm)
    exact (h.2 _ (hmem _ _ hf)).2.2

/-- A write of a subslot that exists, with the table's duration, keeps the canonical form. -/
theorem setSub_wellFormed (p : BandParams) (t : ChanTable) (k slot j : Nat) (r : SubRec) (h : t.WellFormed p)
    (hk : k ≤ p.lastIndex) (hs : slot < Config.slotsPerFrame) (hj : j < t.mu.subslots)
    (hr : r.duration = (freshRec t.mu).duration) : (t.setSub k slot j r).WellFormed p := by
  refine ⟨cellsRise_writeOr _ _ _ _ h.1, fun c hc => ?_⟩
  rcases mem_writeOr _ _ _ _ c hc with ⟨rfl, hne⟩ | hc
  · exact ⟨⟨k, slot, j, hk, hs, hj, rfl⟩, hne, hr⟩
  · exact h.2 c hc

theorem specModel_rise (p : BandParams) (m : SpecModel) (h : m.WellFormed p) : cellsRise m.pwr = true := by
  unfold SpecModel.WellFormed at h
  simp only [cellsCanonical, Bool.and_eq_true] at h
  exact h.1

theorem created_wellFormed (p : BandParams) : SpecModel.created.WellFormed p := rfl

/-- An accumulator after a write. -/
theorem acc_setAcc (m : SpecModel) (k k' : Nat) (v : BitVec 64) (h : cellsRise m.pwr = true) :
    (m.setAcc k v).acc k' = if k' = k then v else m.acc k' := readOr_writeOr _ _ _ _ _ h

theorem setAcc_wellFormed (p : BandParams) (m : SpecModel) (k : Nat) (v : BitVec 64) (h : m.WellFormed p)
    (hk : k ≤ p.lastIndex) : (m.setAcc k v).WellFormed p :=
  cellsCanonical_writeOr _ _ _ _ _ h (by omega)

/-- What the search for the power of ten finds. -/
theorem largestPowerOfTen_spec (x : Nat) (hx : 0 < x) (bound : Nat) (hb : x < 10 ^ (bound + 1)) :
    10 ^ largestPowerOfTen x bound ≤ x ∧ x < 10 ^ (largestPowerOfTen x bound + 1) := by
  induction bound with
  | zero => simp only [largestPowerOfTen]; exact ⟨by rw [pow_zero]; exact hx, hb⟩
  | succ e ih =>
    simp only [largestPowerOfTen]
    split
    · exact ⟨by assumption, hb⟩
    · exact ih (by omega)

end Sys2Proof.Machine
end

