-- ==== Sys2Proof/Machine/Pseudo.lean ====
section
/-! DEFINITION. The pseudo-commands of the assembler and their expansions (30_encoding.md R105). They are the host's
shorthand; the block sees the expansion only. -/

namespace Sys2Proof.Machine

/-- `SETF bank.flag` (R105). -/
def pseudoSetf (flag : Reg) : List Instr := [.set flag 1#32]

/-- `CLRF bank.flag` (R105). -/
def pseudoClrf (flag : Reg) : List Instr := [.set flag 0#32]

/-- `REWIND` (R105). -/
def pseudoRewind : List Instr := [.seek 0#32]

/-- `PUT addr, b0, b1, ..., bk` (R105). DESIGN CHOICE, unsafe (log entry 15): where `addr+k` passes `2^32 − 1`, which no
operand can hold, the address wraps to 0; R105 does not say what the assembler does there. -/
def pseudoPut (addr : Word) : List Word → List Instr
  | [] => []
  | v :: vs => .bufwr addr v :: pseudoPut (addr + 1#32) vs

/-- `LOAD bank` (R105). -/
def pseudoLoad (b : Bank) : List Instr := [.seek 0#32, .des b]

end Sys2Proof.Machine
end

