-- ==== Sys2Proof/Tests/Slice0.lean ====
section
/-! SUPPORT. Tests. Expected values are those of 95_test_vectors.md (the vector is named) or of the rule named beside the
test. The last part shows, for each statement with hypotheses, states and operands that meet them. -/

namespace Sys2Proof.Machine.Test

/-! ### Well-formedness: each check refuses an ill-formed term -/

theorem test_wf_disp : (Instr.disp .bh).wellFormed = false ∧ (Instr.disp .mux).wellFormed = true := by decide
theorem test_wf_nb_channel : (Instr.nb { currentClusterChannel := 5#13 }).wellFormed = false := by decide
theorem test_wf_nb_additional :
    (Instr.nb { nbChannels := 1#2, additionalChannel := ⟨1680#13, 1681#13, 0#13⟩ }).wellFormed = false := by decide
theorem test_wf_cb : (Instr.cb { frameOffset := 9#8 }).wellFormed = false := by decide
theorem test_wf_areq_channel :
    (Instr.areq { currentFlag := 1#1, currentClusterChannel := 1658#13 }).wellFormed = false := by decide
theorem test_wf_areq_flow :
    (Instr.areq { numberOfFlows := 7#3, flowId := ⟨1#6, 0#6, 0#6, 0#6, 0#6, 0#6⟩ }).wellFormed = false := by decide
theorem test_wf_arspReject_outcome : (Instr.arspReject { ackNack := 1#1 }).wellFormed = false := by decide
theorem test_wf_arspReject_flow :
    (Instr.arspReject { numberOfFlows := 1#3, flowId := ⟨9#6, 0#6, 0#6, 0#6, 0#6, 0#6⟩ }).wellFormed = false := by decide
theorem test_wf_arspAccept_outcome : (Instr.arspAccept {}).wellFormed = false := by decide
theorem test_wf_arspAccept_cause : (Instr.arspAccept { ackNack := 1#1, rejectCause := 1#4 }).wellFormed = false := by decide
theorem test_wf_rar : (Instr.rar { repetition := 10#8 }).wellFormed = false := by decide

/-! ### Decoding: one record for each command (95_test_vectors.md section 2) -/
theorem test_decode_nop : decodeRecord 0x0000000000000000000000000000000000#136 = .ok .nop := by decide
theorem test_decode_rst : decodeRecord 0x0100000005000000000000000000000000#136 = .ok (.rst .cb) := by decide
theorem test_decode_set : decodeRecord 0x020000000600000009000000050000003F#136 = .ok (.set (.areq (.flowId .i5)) 63#32) := by decide
theorem test_decode_get : decodeRecord 0x03000000070000000A0000000200000000#136 = .ok (.get (.arsp (.flowId .i2))) := by decide
theorem test_decode_size : decodeRecord 0x0400000004000000000000000000000000#136 = .ok (.size .nb) := by decide
theorem test_decode_ser : decodeRecord 0x0500000002000000000000000000000000#136 = .ok (.ser .uh) := by decide
theorem test_decode_des : decodeRecord 0x0600000008000000000000000000000000#136 = .ok (.des .rar) := by decide
theorem test_decode_disp : decodeRecord 0x0700000003000000000000000000000000#136 = .ok (.disp .mux) := by decide
theorem test_decode_seek : decodeRecord 0x0800000800000000000000000000000000#136 = .ok (.seek 2048#32) := by decide
theorem test_decode_tell : decodeRecord 0x0900000000000000000000000000000000#136 = .ok .tell := by decide
theorem test_decode_bufwr : decodeRecord 0x0A00000010000000A50000000000000000#136 = .ok (.bufwr 16#32 0xA5#32) := by decide
theorem test_decode_bufrd : decodeRecord 0x0B00000010000000000000000000000000#136 = .ok (.bufrd 16#32) := by decide
theorem test_decode_chinit : decodeRecord 0x1000000002000000080000000000000000#136 = .ok (.chinit 2#32 8#32) := by decide
theorem test_decode_chvalid : decodeRecord 0x1100000015000000000000000000000000#136 = .ok (.chvalid 21#32) := by decide
theorem test_decode_bandparm : decodeRecord 0x1200000001000000040000000000000000#136 = .ok (.bandparm 1#32 .nEnd) := by decide
theorem test_decode_cfreq : decodeRecord 0x13000000010000067C0000000000000000#136 = .ok (.cfreq 1#32 1660#32) := by decide
theorem test_decode_chfreq : decodeRecord 0x14000006A4000000000000000000000000#136 = .ok (.chfreq 1700#32) := by decide
theorem test_decode_chid : decodeRecord 0x15001CC0E0000000000000000000000000#136 = .ok (.chid 1884384#32) := by decide
theorem test_decode_bin : decodeRecord 0x1600000002000006A40000000000000000#136 = .ok (.bin 2#32 1700#32) := by decide
theorem test_decode_ssget : decodeRecord 0x1700000001000006790000170100000002#136 = .ok (.ssget 1#32 1657#32 23#8 1#8 .duration) := by decide
theorem test_decode_ssset : decodeRecord 0x180000000100000679000003010002FFB0#136 = .ok (.ssset 1#32 1657#32 3#8 1#8 2#2 (-80#16)) := by decide
theorem test_decode_tloc : decodeRecord 0x1900000001000000040000000100000000#136 = .ok (.tloc 1#32 .sfn 0x100000000#64) := by decide
theorem test_decode_pwadd : decodeRecord 0x20000000010000067900038D7EA4C68000#136 = .ok (.pwadd 1#32 1657#32 1000000000000000#64) := by decide
theorem test_decode_pwsub : decodeRecord 0x2100000002000006900000000000000001#136 = .ok (.pwsub 2#32 1680#32 1#64) := by decide
theorem test_decode_rssi : decodeRecord 0x22000000010000068D0000000000000000#136 = .ok (.rssi 1#32 1677#32) := by decide
theorem test_decode_w2dbm : decodeRecord 0x230000000000000000FFFFFFFFFFFFFFFB#136 = .ok (.w2dbm (-5#64)) := by decide
theorem test_decode_stclr : decodeRecord 0x3000000000000000000000000000000000#136 = .ok .stclr := by decide
theorem test_decode_stget : decodeRecord 0x3100000000000000000000000000000000#136 = .ok .stget := by decide


/-! ### Illegal records (section 2) -/

theorem test_illegal_opcode_12 : decodeRecord 0x0C00000000000000000000000000000000#136 = .illegal .opcode := by decide
theorem test_illegal_opcode_255 : decodeRecord 0xFF00000000000000000000000000000000#136 = .illegal .opcode := by decide
theorem test_illegal_bank : decodeRecord 0x010000000B000000000000000000000000#136 = .illegal .bank := by decide
theorem test_illegal_field : decodeRecord 0x0200000000000000030000000000000000#136 = .illegal .field := by decide
theorem test_illegal_index : decodeRecord 0x03000000040000000A0000000300000000#136 = .illegal .index := by decide
theorem test_illegal_scalar_index : decodeRecord 0x0200000004000000040000000100000000#136 = .illegal .index := by decide
theorem test_illegal_disp_bank : decodeRecord 0x0700000001000000000000000000000000#136 = .illegal .dispBank := by decide
theorem test_illegal_bandparm_sel : decodeRecord 0x1200000001000000050000000000000000#136 = .illegal .sel := by decide
theorem test_illegal_slotsub : decodeRecord 0x1700000001000006790001000000000000#136 = .illegal .mustBeZero := by decide
theorem test_illegal_ssget_sel : decodeRecord 0x1700000001000006790000000000000003#136 = .illegal .sel := by decide
theorem test_illegal_ssset_operand : decodeRecord 0x1800000001000006790000000000040000#136 = .illegal .mustBeZero := by decide
theorem test_illegal_tloc_sel : decodeRecord 0x1900000001000000050000000000000000#136 = .illegal .sel := by decide


/-! ### Decoding: the bytes of one structure for each wire row (sections 4 to 6); a byte that follows is left -/

/-- V4.2. -/
theorem test_decode_mht :
    decodeWire .mht [0x42#8, 0xEE#8] =
      some (.mht { version := 1#2, security := 0#2, headerType := 2#4 }, [0xEE#8]) := by decide

/-- V4.11. -/
theorem test_decode_bh :
    decodeWire .bh [0x12#8, 0x34#8, 0x56#8, 0xDE#8, 0xAD#8, 0xBE#8, 0xEF#8, 0xEE#8] =
      some (.bh { networkId := 0x123456#24, transmitterAddress := 0xDEADBEEF#32 }, [0xEE#8]) := by decide

/-- V4.21, with reserved bits set. -/
theorem test_decode_uh :
    decodeWire .uh [0xFA#8, 0xBC#8, 0x11#8, 0x22#8, 0x33#8, 0x44#8, 0x55#8, 0x66#8, 0x77#8, 0x88#8, 0xEE#8] =
      some (.uh {
        reset := 1#1, sequenceNumber := 0xABC#12, receiverAddress := 0x11223344#32,
        transmitterAddress := 0x55667788#32 }, [0xEE#8]) := by decide

/-- V5.1. -/
theorem test_decode_muxForm0 :
    decodeWire .mux [0x08#8, 0xEE#8] =
      some (.muxForm0 8#6, [0xEE#8]) := by decide

/-- V5.3. -/
theorem test_decode_muxForm1 :
    decodeWire .mux [0x49#8, 0x04#8, 0xEE#8] =
      some (.muxForm1 9#6 4#8, [0xEE#8]) := by decide

/-- V5.6. -/
theorem test_decode_muxForm2 :
    decodeWire .mux [0x93#8, 0x01#8, 0x23#8, 0xEE#8] =
      some (.muxForm2 19#6 291#16, [0xEE#8]) := by decide

/-- V5.9. -/
theorem test_decode_muxForm3 :
    decodeWire .mux [0xE1#8, 0xEE#8] =
      some (.muxForm3 1#5 1#1, [0xEE#8]) := by decide

/-- V6.2. -/
theorem test_decode_nb :
    decodeWire .nb [0x16#8, 0x23#8, 0x06#8, 0x79#8, 0x00#8, 0x01#8, 0x00#8, 0x00#8, 0x0A#8, 0x06#8, 0x7A#8, 0x06#8,
      0x7B#8, 0x06#8, 0x8D#8, 0xEE#8] =
      some (.nb {
        txPowerFlag := 1#1, currentFlag := 1#1, nbChannels := 2#2, nbPeriod := 2#4, cbPeriod := 3#4,
        nextClusterChannel := 1657#13, timeToNext := 0x10000#32, clustersMaxTxPower := 10#4,
        currentClusterChannel := 1658#13, additionalChannel := ⟨1659#13, 1677#13, 0#13⟩ }, [0xEE#8]) := by decide

/-- V6.7. -/
theorem test_decode_cb :
    decodeWire .cb [0x2A#8, 0x0F#8, 0x12#8, 0x36#8, 0x10#8, 0x06#8, 0x7C#8, 0x00#8, 0x01#8, 0x86#8, 0xA0#8, 0xEE#8]
      =
      some (.cb {
        sfn := 42#8, powerConst := 1#1, foFlag := 1#1, nextChannelFlag := 1#1, timeToNextFlag := 1#1,
        nbPeriod := 1#4, cbPeriod := 2#4, countToTrigger := 3#4, relQuality := 1#2, minQuality := 2#2,
        frameOffset := 16#8, nextClusterChannel := 1660#13, timeToNext := 0x186A0#32 }, [0xEE#8]) := by decide

/-- V6.12. -/
theorem test_decode_areq :
    decodeWire .areq [0x09#8, 0x80#8, 0x6A#8, 0x6A#8, 0x01#8, 0x03#8, 0x23#8, 0x06#8, 0x79#8, 0x12#8, 0x34#8,
      0x56#8, 0x78#8, 0x06#8, 0x7A#8, 0xEE#8] =
      some (.areq {
        numberOfFlows := 2#3, ftMode := 1#1, currentFlag := 1#1, harqProcessesTx := 3#3, maxHarqReTx := 10#5,
        harqProcessesRx := 3#3, maxHarqReRx := 10#5, flowId := ⟨1#6, 3#6, 0#6, 0#6, 0#6, 0#6⟩, nbPeriod := 2#4,
        cbPeriod := 3#4, nextClusterChannel := 1657#13, timeToNext := 0x12345678#32,
        currentClusterChannel := 1658#13 }, [0xEE#8]) := by decide

/-- V6d.11, with reserved bits set. -/
theorem test_decode_arspReject :
    decodeWire .arsp [0x41#8, 0x25#8, 0xEE#8] =
      some (.arspReject { rejectCause := 2#4, rejectTime := 5#4 }, [0xEE#8]) := by decide

/-- V6.21. -/
theorem test_decode_arspAccept :
    decodeWire .arsp [0xA6#8, 0x45#8, 0x45#8, 0x03#8, 0x11#8, 0x22#8, 0xEE#8] =
      some (.arspAccept {
        ackNack := 1#1, harqMod := 1#1, numberOfFlows := 1#3, group := 1#1, harqProcessesRx := 2#3,
        maxHarqReRx := 5#5, harqProcessesTx := 2#3, maxHarqReTx := 5#5, flowId := ⟨3#6, 0#6, 0#6, 0#6, 0#6, 0#6⟩,
        groupId := 17#7, resourceTag := 34#7 }, [0xEE#8]) := by decide

/-- V6.25. -/
theorem test_decode_rar :
    decodeWire .rar [0x0E#8, 0x04#8, 0x08#8, 0x11#8, 0x2B#8, 0x0A#8, 0x14#8, 0x07#8, 0x06#8, 0x79#8, 0xEE#8] =
      some (.rar {
        repeatMode := 1#2, sfnFlag := 1#1, channelFlag := 1#1, startSubslot := 4#8, length := 8#7,
        maxRachLength := 2#4, cwMinSig := 1#3, responseWindow := 5#4, cwMaxSig := 3#3, repetition := 10#8,
        validity := 20#8, sfnOffset := 7#8, channel := 1657#13 }, [0xEE#8]) := by decide

/-- V4.24. -/
theorem test_decode_rdc :
    decodeWire .rdc [0x01#8, 0x19#8, 0x28#8, 0x31#8, 0x54#8, 0x68#8, 0x03#8, 0xEE#8] =
      some (.rdc {
        release := 1#5, paging := 1#1, operatingModes := 2#2, schedul := 1#1, macSecurity := 1#3,
        dlcServiceType := 2#3, rdPowerClass := 3#3, rxForTxDiversity := 1#2, rxGain := 5#4, maxMcs := 4#4,
        softBufferSize := 6#4, numHarqProcesses := 2#2, harqFeedbackDelay := 3#4 }, [0xEE#8]) := by decide

/-- V4.31. -/
theorem test_decode_aci :
    decodeWire .aci [0xA5#8, 0xEE#8] =
      some (.aci { cbM := 1#1, dlDataReception := 2#3, ulPeriod := 5#4 }, [0xEE#8]) := by decide

/-! ### The opcode table's words (log entry 3) -/

theorem test_table_record : decodeTableWord 136 0x0B00000010000000000000000000000000 = some (.bufrd 16#32) := by decide
theorem test_table_wire : decodeTableWord 24 0x230193 = some (.muxForm2 19#6 291#16) := by decide

/-! ### One step each -/

/-- The last response after an instruction, as its fault code and two values. -/
def answerOf (i : Instr) (s : State) : Option Response :=
  match exec i s with
  | .next t => t.responses.getLast?
  | .fault _ => none
  | .refused _ => none

/-- The state after an instruction. -/
def after (i : Instr) (s : State) : State :=
  match exec i s with
  | .next t => t
  | .fault _ => s
  | .refused _ => s

/-- A block halted by FatalConfiguration (R311). -/
def halted : State := { State.reset with status := ⟨true, false, true, .fatalConfiguration⟩ }
/-- The cursor at a position. -/
def at_ (c : BitVec 12) : State := { State.reset with cur := c }
/-- A band `MUX` with a form and a length. -/
def muxed (form : BitVec 2) (length : BitVec 16) : State :=
  { State.reset with banks := { mux := { macExt := form, ieType := 9#6, length := length } } }
/-- Band 1 initialised with a scaling factor. -/
def built (m : Mu) : State := { State.reset with chan := ⟨some (ChanTable.built m), none, none, none⟩ }
/-- Band 1 with a spectral model whose first accumulator holds a value other than 0. -/
def powered (v : BitVec 64) : State := { State.reset with spec := ⟨some ⟨[(0, v)]⟩, none, none, none⟩ }
/-- `CB` bytes that do not fit: V7.6. -/
def cbAtEnd : State :=
  { State.reset with cur := 2044#12, buf := [(2044, 7#8), (2045, 0x10#8), (2046, 0#8), (2047, 0#8)] }

/-- R307. -/
theorem test_halted_nop : answerOf .nop halted = some ⟨.halted, 0#32, 0#32⟩ := by decide
/-- R83: the bytes of a response. -/
theorem test_response_bytes : (Response.mk .bufferOverrun 0x01020304#32 0xA5#32).bytes =
    [3#8, 1#8, 2#8, 3#8, 4#8, 0#8, 0#8, 0#8, 0xA5#8] := by decide
/-- V8.13: `STATUS` is then 0x0605. -/
theorem test_halted_status : (after .nop halted).status.word = 0x0605#16 := by decide
/-- V3.18. -/
theorem test_rst : ((after (.rst .nb) { State.reset with banks := { nb := { nbPeriod := 3#4 } } }).banks.read (.nb .nbPeriod))
    = 0#32 := by decide
/-- V3.9. -/
theorem test_set_headerType : answerOf (.set (.mht .headerType) 14#32) State.reset = some ⟨.invalidArgument, 0#32, 0#32⟩ := by
  decide
/-- V3.17: no flag is set by its field. -/
theorem test_set_no_flag :
    (after (.set (.cb .timeToNext) 0xFFFFFFFF#32) State.reset).banks.read (.cb .timeToNextFlag) = 0#32 := by decide
/-- V3.12. -/
theorem test_get : answerOf (.get (.areq (.flowId .i5)))
    { State.reset with banks := { areq := { flowId := ⟨0#6, 0#6, 0#6, 0#6, 0#6, 63#6⟩ } } } = some ⟨.ok, 63#32, 0#32⟩ := by
  decide
/-- R171: 8 bytes and two for each additional channel. -/
theorem test_size : answerOf (.size .nb) { State.reset with banks := { nb := { nbChannels := 3#2 } } } =
    some ⟨.ok, 14#32, 0#32⟩ := by decide
/-- S-1: the byte is 0x63. -/
theorem test_ser : bufByte (after (.ser .mht)
    { State.reset with banks := { mht := { version := 1#2, security := 2#2, headerType := 3#4 } } }) 0 = 0x63#8 := by decide
/-- V5.5. -/
theorem test_ser_misfit : answerOf (.ser .mux) (muxed 1#2 256#16) = some ⟨.invalidArgument, 0#32, 0#32⟩ := by decide
/-- V7.9. -/
theorem test_des : (after (.des .mht) { State.reset with buf := [(0, 0x42#8)] }).banks.mht =
    { version := 1#2, security := 0#2, headerType := 2#4 } := by decide
/-- V7.6. -/
theorem test_des_overrun : answerOf (.des .cb) cbAtEnd = some ⟨.bufferOverrun, 0#32, 0#32⟩ := by decide
/-- V5.4. -/
theorem test_disp : answerOf (.disp .mux) (muxed 1#2 255#16) = some ⟨.ok, 5#32, 255#32⟩ := by decide
/-- V7.2. -/
theorem test_seek : answerOf (.seek 2049#32) State.reset = some ⟨.bufferOverrun, 0#32, 0#32⟩ := by decide
/-- V7.2. -/
theorem test_tell : answerOf .tell (at_ 2048#12) = some ⟨.ok, 2048#32, 0#32⟩ := by decide
/-- V7.8: the address is checked before the byte. -/
theorem test_bufwr : answerOf (.bufwr 2048#32 256#32) State.reset = some ⟨.bufferOverrun, 0#32, 0#32⟩ := by decide
/-- V7.8. -/
theorem test_bufrd : answerOf (.bufrd 2047#32) { State.reset with buf := [(2047, 255#8)] } = some ⟨.ok, 255#32, 0#32⟩ := by
  decide
/-- R128: `LAST_FAULT` is 0 afterwards. -/
theorem test_stclr : (after .stclr { State.reset with status := ⟨false, true, true, .bufferOverrun⟩ }).status.word = 0#16 := by
  decide
/-- V8.13 continued: `STGET` answers while halted. -/
theorem test_stget : answerOf .stget halted = some ⟨.ok, 0x0205#32, 0#32⟩ := by decide
/-- V8.9. -/
theorem test_chinit_warn : answerOf (.chinit 1#32 3#32) State.reset = some ⟨.ok, 21#32, 2#32⟩ := by decide
/-- V8.14. -/
theorem test_chinit_fatal : (after (.chinit 3#32 5#32) State.reset).status.word = 0x0207#16 := by decide
/-- V8.6. -/
theorem test_chvalid : answerOf (.chvalid 1#32) (built .mu1) = some ⟨.ok, 21#32, 1657#32⟩ := by decide
/-- Section 8. -/
theorem test_bandparm : answerOf (.bandparm 2#32 .stop) State.reset = some ⟨.ok, 1918944#32, 0#32⟩ := by decide
/-- V8.1. -/
theorem test_cfreq : answerOf (.cfreq 1#32 1677#32) State.reset = some ⟨.ok, 1899072#32, 0#32⟩ := by decide
/-- V8.3. -/
theorem test_chfreq : answerOf (.chfreq 1680#32) State.reset = some ⟨.ok, 1901664#32, 2#32⟩ := by decide
/-- V8.4. -/
theorem test_chid : answerOf (.chid 1918944#32) State.reset = some ⟨.ok, 1700#32, 2#32⟩ := by decide
/-- V8.5. -/
theorem test_bin : answerOf (.bin 1#32 1680#32) State.reset = some ⟨.invalidArgument, 0#32, 0#32⟩ := by decide
/-- V8.18. -/
theorem test_ssget : answerOf (.ssget 1#32 1677#32 23#8 1#8 .duration) (built .mu1) = some ⟨.ok, 360#32, 0#32⟩ := by decide
/-- V8.20. -/
theorem test_ssset : answerOf (.ssget 1#32 1657#32 3#8 1#8 .rssi)
    (after (.ssset 1#32 1657#32 3#8 1#8 2#2 (-80#16)) (built .mu1)) = some ⟨.ok, 0xFFFFFFB0#32, 0#32⟩ := by decide
/-- V8t.11. -/
theorem test_tloc : answerOf (.tloc 1#32 .subslot 55840#64) (built .mu8) = some ⟨.ok, 8#32, 0#32⟩ := by decide
/-- V8t.18. -/
theorem test_tloc_frame : answerOf (.tloc 1#32 .frame 0xFFFFFFFFFFFFFFFF#64) (built .mu1) = some ⟨.ok, 0x59203CAE#32, 0#32⟩ := by
  decide
/-- R282. -/
theorem test_pwadd : answerOf (.pwadd 1#32 1657#32 1000000000000000#64) State.reset =
    some ⟨.ok, 0x00038D7E#32, 0xA4C68000#32⟩ := by decide
/-- R283: an accumulator may go negative. -/
theorem test_pwsub : answerOf (.pwsub 1#32 1657#32 3#64) (powered 1#64) = some ⟨.ok, 0xFFFFFFFF#32, 0xFFFFFFFE#32⟩ := by decide
/-- R286. -/
theorem test_rssi : answerOf (.rssi 1#32 1677#32) State.reset = some ⟨.ok, 0xFFFFFF6A#32, 0#32⟩ := by decide
/-- Section 9: 1258 aW. -/
theorem test_w2dbm_1258 : answerOf (.w2dbm 1258#64) State.reset = some ⟨.ok, 0xFFFFFF88#32, 0#32⟩ := by decide
/-- Section 9: 1259 aW. -/
theorem test_w2dbm_1259 : answerOf (.w2dbm 1259#64) State.reset = some ⟨.ok, 0xFFFFFF89#32, 0#32⟩ := by decide
/-- R117 (log entry 2). -/
theorem test_wire_aci : answerOf (.aci { ulPeriod := 5#4 }) (at_ 2047#12) = some ⟨.ok, 1#32, 0#32⟩ := by decide
/-- R117 (log entry 2): a structure that would pass the end. -/
theorem test_wire_overrun : answerOf (.bh {}) (at_ 2042#12) = some ⟨.bufferOverrun, 0#32, 0#32⟩ := by decide
/-- V6.21 consumes 6 bytes. -/
theorem test_wire_arsp : answerOf (.arspAccept { ackNack := 1#1, harqMod := 1#1, numberOfFlows := 1#3, group := 1#1 })
    State.reset = some ⟨.ok, 6#32, 0#32⟩ := by decide

/-! ### Hypotheses that can be met -/

/-- For the statements whose one hypothesis is a running block: `RST`, `GET`, `SIZE`, `DISP`, `TELL`, `BUFRD`. -/
theorem witness_running : State.reset.Running ∧ (at_ 2048#12).Running ∧ (powered (-1#64)).Running := ⟨rfl, rfl, rfl⟩
/-- `NOP` and `STCLR`: a running block and a halted one. -/
theorem witness_halted : State.reset.Running ∧ halted.status.fatal = true := ⟨rfl, rfl⟩
theorem witness_unsupported : Unsupported 3#32 ∧ Unsupported 0xFFFFFFFF#32 := by
  constructor <;> intro b <;> cases b <;> decide
/-- The first and the last channel of a band, and the numbers beside them. -/
theorem witness_inBand : InBand .b1 1657#32 ∧ InBand .b1 1677#32 ∧ ¬ InBand .b1 1656#32 ∧ ¬ InBand .b1 1678#32 :=
  ⟨⟨by decide, by decide⟩, ⟨by decide, by decide⟩, fun h => absurd h.1 (by decide), fun h => absurd h.2 (by decide)⟩
theorem witness_legalMu : LegalMu 1#32 ∧ LegalMu 8#32 ∧ ¬ LegalMu 0#32 ∧ ¬ LegalMu 16#32 :=
  ⟨.inl rfl, .inr (.inr (.inr rfl)), by unfold LegalMu; decide, by unfold LegalMu; decide⟩
/-- A bank selector and its bank, for the decode clauses of `RST`, `SIZE`, `SER` and `DES`: the first and the last. -/
theorem witness_banksBySelector : banksBySelector[0]? = some .mht ∧ banksBySelector[10]? = some .aci := ⟨rfl, rfl⟩
/-- The selectors of a register, for the decode clauses of `SET` and `GET`: the last of an array, the last bank's last. -/
theorem witness_registerAt : registerAt 4 10 2 = some (13, .nb (.additionalChannel .i2))
    ∧ registerAt 10 2 0 = some (4, .aci .ulPeriod) := ⟨rfl, rfl⟩
/-- `SET`, at the bounds of a range and of the variant codes. -/
theorem witness_SetWritesOneRegister : State.reset.Running ∧ LegalValue (.nb .nbPeriod) 15#32 ∧ ¬ LegalValue (.nb .nbPeriod) 16#32
    ∧ LegalValue (.mht .headerType) 15#32 ∧ ¬ LegalValue (.mht .headerType) 4#32 :=
  ⟨rfl, by unfold LegalValue; decide⟩

/-- The reset input, on a halted block. -/
theorem witness_ResetInputRestoresReset : ({ halted with inbox := [.reset] } : State).inbox = .reset :: [] := rfl
theorem witness_IdleStepHoldsState : State.reset.inbox = [] := rfl
theorem witness_StepRunsDecodedRecord :
    ({ State.reset with inbox := [.command 0x09#136, .reset] } : State).inbox = .command 0x09#136 :: [.reset]
    ∧ decodeRecord 0x09#136 = .ok .nop := ⟨rfl, by decide⟩
theorem witness_StepRefusesIllegalRecord :
    (State.withFetchWord halted 136 (0x0C * 2 ^ 128)).inbox = .command 0x0C00000000000000000000000000000000#136 :: []
    ∧ decodeRecord 0x0C00000000000000000000000000000000#136 = .illegal .opcode := ⟨by decide, by decide⟩
theorem witness_EveryRecordYieldsOneResponse :
    ({ State.reset with inbox := [.command 0#136] } : State).inbox = .command 0#136 :: [] := rfl
theorem witness_RefusedInstructionChangesOnlyStatus :
    exec (.seek 2049#32) State.reset = .next (after (.seek 2049#32) State.reset)
    ∧ (after (.seek 2049#32) State.reset).responses = State.reset.responses ++ [⟨.bufferOverrun, 0#32, 0#32⟩]
    ∧ exec (.chinit 3#32 5#32) State.reset = .next (after (.chinit 3#32 5#32) State.reset)
    ∧ (after (.chinit 3#32 5#32) State.reset).responses = State.reset.responses ++ [⟨.fatalConfiguration, 0#32, 0#32⟩] :=
  ⟨rfl, by decide, rfl, by decide⟩
theorem witness_HaltedBlockRefusesAllButStget :
    ({ halted with inbox := [.command 0#136] } : State).inbox = .command 0#136 :: [] ∧ halted.status.fatal = true
    ∧ decodeRecord 0#136 ≠ .ok .stget := ⟨rfl, rfl, by decide⟩
theorem witness_OnlyResetLeavesHalted :
    ∃ t, step { halted with inbox := [.reset] } = .next t ∧ t.status.fatal = false := ⟨_, rfl, rfl⟩
theorem witness_OnlyUnsupportedBandHalts :
    ∃ t, exec (.bandparm 3#32 .start) State.reset = .next t ∧ t.status.fatal = true := ⟨_, rfl, by decide⟩
/-- `SER`: a structure that ends at `BUF_SIZE`, an inconsistent header, a structure one byte too long. -/
theorem witness_SerWritesStructure :
    ((at_ 2041#12).Running ∧ (at_ 2041#12).cur.toNat + (at_ 2041#12).banks.size .bh = 2048)
    ∧ (muxed 1#2 256#16).banks.mux.fits = false
    ∧ 2048 < (at_ 2042#12).cur.toNat + (at_ 2042#12).banks.size .bh := ⟨⟨rfl, by decide⟩, by decide, by decide⟩
/-- `DES`: a structure that ends at `BUF_SIZE`, a prefix too long, a structure too long after a prefix that fits. -/
theorem witness_DesLoadsOneBank :
    (sizeFromPrefix .bh (memRead (at_ 2041#12) 2041 Bank.bh.prefixBytes) = 7 ∧ 2041 + Bank.bh.prefixBytes ≤ 2048)
    ∧ 2048 < (at_ 2042#12).cur.toNat + Bank.bh.prefixBytes
    ∧ (cbAtEnd.Running ∧ sizeFromPrefix .cb (memRead cbAtEnd 2044 Bank.cb.prefixBytes) = 5
      ∧ cbAtEnd.cur.toNat + Bank.cb.prefixBytes = 2048) :=
  ⟨⟨rfl, by decide⟩, by decide, rfl, by decide, by decide⟩
theorem witness_SeekMovesCursor : State.reset.Running ∧ (2048#32).toNat ≤ 2048 ∧ 2048 < (2049#32).toNat :=
  ⟨rfl, by decide, by decide⟩
/-- `BUFWR`, and the addresses of `BUFRD`. -/
theorem witness_BufwrStoresOneByte : State.reset.Running ∧ ((2047#32).toNat < 2048 ∧ (255#32).toNat ≤ 255) ∧ 2048 ≤ (2048#32).toNat
    ∧ 255 < (256#32).toNat := ⟨rfl, by decide⟩
/-- The round trip: a structure that ends at `BUF_SIZE`. -/
theorem witness_SerSeekDesRoundTrip :
    ({ muxed 2#2 65535#16 with cur := 2045#12 } : State).Running ∧ (muxed 2#2 65535#16).banks.mux.fits = true
    ∧ (2045#12).toNat + (muxed 2#2 65535#16).banks.size .mux ≤ 2048 := ⟨rfl, by decide, by decide⟩
theorem witness_FixedStructureLoadsItsBank : (at_ 2047#12).Running ∧ (at_ 2047#12).cur.toNat + 1 ≤ 2048
    ∧ (at_ 2041#12).cur.toNat + 7 ≤ 2048 ∧ (at_ 2038#12).cur.toNat + 10 ≤ 2048 := ⟨rfl, by decide, by decide, by decide⟩
theorem witness_MuxFormLoadsMuxBank : (at_ 2047#12).Running ∧ (at_ 2047#12).cur.toNat + 1 ≤ 2048
    ∧ (at_ 2046#12).cur.toNat + 2 ≤ 2048 ∧ (at_ 2045#12).cur.toNat + 3 ≤ 2048 := ⟨rfl, by decide, by decide, by decide⟩
theorem witness_VariableStructureLoadsItsBank :
    ((Instr.nb { nbChannels := 3#2 }).wellFormed = true ∧ (at_ 2034#12).cur.toNat + NbBank.size { nbChannels := 3#2 } ≤ 2048)
    ∧ ((Instr.cb { foFlag := 1#1, frameOffset := 9#8 }).wellFormed = true
      ∧ (at_ 2043#12).cur.toNat + CbBank.size { foFlag := 1#1, frameOffset := 9#8 } ≤ 2048)
    ∧ ((Instr.areq { numberOfFlows := 7#3 }).wellFormed = true
      ∧ (at_ 2044#12).cur.toNat + AreqBank.size { numberOfFlows := 7#3 } ≤ 2048)
    ∧ ((Instr.arspReject { rejectCause := 2#4 }).wellFormed = true ∧ (at_ 2046#12).cur.toNat + 2 ≤ 2048)
    ∧ ((Instr.arspAccept { ackNack := 1#1 }).wellFormed = true
      ∧ (at_ 2047#12).cur.toNat + ArspBank.size { ackNack := 1#1 } ≤ 2048)
    ∧ ((Instr.rar { repeatMode := 2#2, validity := 2#8 }).wellFormed = true
      ∧ (at_ 2041#12).cur.toNat + RarBank.size { repeatMode := 2#2, validity := 2#8 } ≤ 2048) := by decide
theorem witness_DesIsTheWireRowAtTheCursor :
    (∃ i, decodeWire .mht (memRead (at_ 2047#12) 2047 1) = some (i, []))
    ∧ (at_ 2048#12).Running ∧ decodeWire .mht (memRead (at_ 2048#12) 2048 0) = none := ⟨⟨_, rfl⟩, rfl, rfl⟩
theorem witness_BandparmAnswersParameter : State.reset.Running ∧ Unsupported 3#32 ∧ 4 < (5#32).toNat :=
  ⟨rfl, witness_unsupported.1, by decide⟩
theorem witness_ChvalidAnswersChannelList :
    (built .mu8).chan.get .b1 = some (ChanTable.built .mu8) ∧ (built .mu8).chan.get .b2 = none := ⟨rfl, rfl⟩
/-- `CFREQ` and `BIN`: the last channel of a band, the number after it, a band that is none. -/
theorem witness_CfreqAnswersCentreFrequency :
    State.reset.Running ∧ InBand .b2 1700#32 ∧ ¬ InBand .b2 1701#32 ∧ Unsupported 3#32 :=
  ⟨rfl, ⟨by decide, by decide⟩, fun h => absurd h.2 (by decide), witness_unsupported.1⟩
/-- `CHINIT`: the greatest scaling factor, the number after it, a band that is none. -/
theorem witness_ChinitBuildsChannelList : State.reset.Running ∧ LegalMu 8#32 ∧ ¬ LegalMu 9#32 ∧ Unsupported 0#32 :=
  ⟨rfl, witness_legalMu.2.1, by unfold LegalMu; decide, by intro b; cases b <;> decide⟩
/-- A channel number in no band, open rows included: R241 (e). -/
theorem witness_ChfreqFindsBandOfChannel : State.reset.Running ∧ InBand .b2 1700#32 ∧ ∀ b, ¬ InBand b 8192#32 :=
  ⟨rfl, ⟨by decide, by decide⟩, fun b h => by
    have h1 := Config.openRows.legal.end_le b
    have h2 : 8192 ≤ (Config.bandTable b).nEnd.toNat := h.2
    have h3 : (Config.bandTable b).nEnd.toNat ≤ 8191 := h1
    omega⟩
/-- The last channel of band 2, and a frequency of no channel, open rows included: there are fewer channels than words. -/
theorem witness_ChidFindsChannelOfFrequency :
    ((1918944#32).toNat = (Config.bandTable .b2).start.toNat + 20 * (Config.bandTable .b2).step.toNat)
    ∧ ∃ f : Word, ∀ (b : Band) (k : Nat), k ≤ (Config.bandTable b).nEnd.toNat - (Config.bandTable b).nStart.toNat →
      f.toNat ≠ (Config.bandTable b).start.toNat + k * (Config.bandTable b).step.toNat := by
  refine ⟨by decide, ?_⟩
  by_contra hc
  simp only [not_exists, not_forall, not_not] at hc
  choose band k hk hf using hc
  let num : Band → Fin 4 := fun b => match b with | .b1 => 0 | .b2 => 1 | .b20 => 2 | .b21 => 3
  have hnum : ∀ b c : Band, num b = num c → b = c := by intro b c; cases b <;> cases c <;> decide
  let g : Fin (2 ^ 32) → Fin 4 × Fin 8192 := fun x => (num (band (BitVec.ofFin x)), ⟨k (BitVec.ofFin x), by
    have h1 := hk (BitVec.ofFin x)
    have h2 : (Config.bandTable (band (BitVec.ofFin x))).nEnd.toNat ≤ 8191 := Config.openRows.legal.end_le _
    omega⟩)
  have hg : Function.Injective g := by
    intro x y hxy
    have h1 := hnum _ _ (congrArg Prod.fst hxy)
    have h2 : k (BitVec.ofFin x) = k (BitVec.ofFin y) := congrArg (fun p => p.2.val) hxy
    have h3 : (BitVec.ofFin x).toNat = (BitVec.ofFin y).toNat := by rw [hf (BitVec.ofFin x), hf (BitVec.ofFin y), h1, h2]
    exact Fin.ext h3
  have := Fintype.card_le_of_injective g hg
  simp at this
theorem witness_SsgetAnswersSubslotField : (built .mu8).Running ∧ (built .mu8).chan.get .b1 = some (ChanTable.built .mu8)
    ∧ InBand .b1 1677#32 ∧ (23#8).toNat < 24 ∧ (15#8).toNat < 2 * (ChanTable.built .mu8).mu.toNat :=
  ⟨rfl, rfl, witness_inBand.2.1, by decide, by decide⟩
/-- `SSSET`, with the hypotheses of `SSGET` besides. -/
theorem witness_SssetWritesOneSubslot : (ChanTable.built .mu8).WellFormed (Config.bandTable .b1)
    ∧ (2#2).toNat ≤ 2 ∧ (3#2).toNat = 3 := ⟨built_wellFormed _ _, by decide, by decide⟩
theorem witness_SubslotChecksInOrder : State.reset.Running ∧ (built .mu1).Running ∧ State.reset.chan.get .b1 = none
    ∧ ¬ (InBand .b1 1657#32 ∧ (24#8).toNat < 24 ∧ (0#8).toNat < 2 * (ChanTable.built .mu1).mu.toNat)
    ∧ ¬ (InBand .b1 1657#32 ∧ (0#8).toNat < 24 ∧ (2#8).toNat < 2 * (ChanTable.built .mu1).mu.toNat) :=
  ⟨rfl, rfl, rfl, fun h => absurd h.2.1 (by decide), fun h => absurd h.2.2 (by decide)⟩
/-- `TLOC`: a band that is initialised and one that is not. -/
theorem witness_TlocLocatesTick : (built .mu8).Running ∧ (built .mu8).chan.get .b1 = some (ChanTable.built .mu8)
    ∧ (built .mu8).chan.get .b20 = none := ⟨rfl, rfl, rfl⟩
theorem witness_ChannelLaws :
    (∃ t, exec (.chinit (bandWord .b1) 8#32) State.reset = .next t ∧ t.chan.get .b1 = some (ChanTable.built .mu8))
    ∧ (74217034874879#64).toNat / 17280 < 2 ^ 32 := ⟨⟨_, rfl, rfl⟩, by decide⟩
/-- `PWADD`: the result is the greatest an accumulator holds. -/
theorem witness_PwaddAddsToOneAccumulator : (powered 1#64).Running
    ∧ (∀ m, (powered 1#64).spec.get .b1 = some m → m.WellFormed (Config.bandTable .b1)) ∧ InBand .b1 1657#32
    ∧ (0x7FFFFFFFFFFFFFFE#64).toNat < 2 ^ 63
    ∧ accumulator (powered 1#64) .b1 (channelIndex .b1 1657#32) + (0x7FFFFFFFFFFFFFFE#64).toNat < 2 ^ 63 := by
  refine ⟨rfl, fun m h => ?_, witness_inBand.1, by decide, by decide⟩
  cases h
  unfold SpecModel.WellFormed
  decide
/-- `PWSUB`: the result is the least an accumulator holds. -/
theorem witness_PwsubSubtractsFromOneAccumulator : (powered (-1#64)).Running ∧ InBand .b1 1657#32
    ∧ (0x7FFFFFFFFFFFFFFF#64).toNat < 2 ^ 63
    ∧ (∀ m, (powered (-1#64)).spec.get .b1 = some m → m.WellFormed (Config.bandTable .b1))
    ∧ -(2 ^ 63) ≤ accumulator (powered (-1#64)) .b1 (channelIndex .b1 1657#32) - (0x7FFFFFFFFFFFFFFF#64).toNat := by
  refine ⟨rfl, witness_inBand.1, by decide, fun m h => ?_, by decide⟩
  cases h
  unfold SpecModel.WellFormed
  decide
theorem witness_PowerUpdateRefusals : (powered 1#64).Running ∧ (powered (-2#64)).Running ∧ 2 ^ 63 ≤ (0x8000000000000000#64).toNat
    ∧ 2 ^ 63 ≤ accumulator (powered 1#64) .b1 (channelIndex .b1 1657#32) + (0x7FFFFFFFFFFFFFFF#64).toNat
    ∧ accumulator (powered (-2#64)) .b1 (channelIndex .b1 1657#32) - (0x7FFFFFFFFFFFFFFF#64).toNat < -(2 ^ 63) :=
  ⟨rfl, rfl, by decide⟩
theorem witness_W2dbmRoundsDown : State.reset.Running ∧ (0#64).toInt ≤ 0 ∧ 0 < (1#64).toInt ∧ 0 < (0x7FFFFFFFFFFFFFFF#64).toInt :=
  ⟨rfl, by decide⟩
theorem witness_RssiAnswersLevel : State.reset.Running ∧ (powered 7#64).Running ∧ InBand .b1 1677#32 ∧ ¬ InBand .b1 1678#32
    ∧ State.reset.spec.get .b1 = none ∧ (powered 7#64).spec.get .b1 = some ⟨[(0, 7#64)]⟩ :=
  ⟨rfl, rfl, witness_inBand.2.1, witness_inBand.2.2.2, rfl, rfl⟩
/-- The updates of laws (b), (c) and (d) all succeed here. -/
theorem witness_SpectrumLaws :
    exec (.pwadd 1#32 1657#32 5#64) State.reset = .next (after (.pwadd 1#32 1657#32 5#64) State.reset)
    ∧ (after (.pwadd 1#32 1657#32 5#64) State.reset).status.lastFault = .ok
    ∧ (after (.pwsub 1#32 1657#32 5#64) (after (.pwadd 1#32 1657#32 5#64) State.reset)).status.lastFault = .ok
    ∧ (after (.pwsub 1#32 1657#32 5#64) State.reset).status.lastFault = .ok
    ∧ (after (.pwadd 1#32 1657#32 5#64) (after (.pwsub 1#32 1657#32 5#64) State.reset)).status.lastFault = .ok :=
  ⟨rfl, by decide, by decide, by decide, by decide⟩
theorem witness_EachPartHasItsWriters : ∃ t, exec .tell (built .mu1) = .next t := ⟨_, rfl⟩
theorem witness_HistoryIsNotRead : ∃ t, exec (.bufwr 0#32 1#32) State.reset = .next t := ⟨_, rfl⟩
/-- A state far from reset that satisfies the invariant, with a record waiting. -/
theorem witness_StepKeepsInvariant : ∃ s t : State, s.Inv ∧ step s = .next t ∧ s.cur = 2048#12 ∧ s.buf = [(2047, 255#8)]
    ∧ s.inbox = [.command 0#136] := by
  refine ⟨{ powered 1#64 with
    cur := 2048#12, buf := [(2047, 255#8)], chan := (built .mu4).chan, inbox := [.command 0#136]
    status := ⟨false, true, true, .bufferOverrun⟩ }, _, ⟨by decide, by decide, ?_, ?_, by decide, by decide⟩, rfl, rfl, rfl, rfl⟩
  · intro b t h
    cases b <;> cases h
    exact built_wellFormed _ _
  · intro b m h
    cases b <;> cases h
    unfold SpecModel.WellFormed
    decide
theorem witness_CommandDecodesAsEncoded : (Instr.disp .mux).wellFormed = true ∧ (Instr.disp .mux).wireBank = none :=
  ⟨by decide, rfl⟩
theorem witness_DecodedCommandIsWellFormed : decodeRecord 0x0700000003000000000000000000000000#136 = .ok (.disp .mux) := by
  decide
theorem witness_WireRowDecodesAsEncoded : (Instr.rar { channelFlag := 1#1, channel := 1657#13 }).wellFormed = true
    ∧ (Instr.rar { channelFlag := 1#1, channel := 1657#13 }).wireBank = some .rar := ⟨by decide, rfl⟩

end Sys2Proof.Machine.Test
end

/-! PROOFS for the family 00_scope.md. The host's two lists, the events still to come and the responses given so far, are the
block's history. Every command body commutes with replacing the history (`IgnoresHistory`); the frame of R110 and R310 then
appends one response and reads neither list (`AnswersBlindly`). Both obligations are read off that one fact. -/

namespace Sys2Proof.Machine

/-! ### Replacing the history -/

/-- The same block with other events still to come and other responses given so far. -/
def State.withHistory (s : State) (q : List HostEvent) (old : List Response) : State :=
  { s with inbox := q, responses := old }

section
variable (s : State) (q : List HostEvent) (old : List Response)

@[simp] theorem withHistory_self : s.withHistory s.inbox s.responses = s := rfl
@[simp] theorem withHistory_inbox : (s.withHistory q old).inbox = q := rfl
@[simp] theorem withHistory_responses : (s.withHistory q old).responses = old := rfl
@[simp] theorem withHistory_chan : (s.withHistory q old).chan = s.chan := rfl
@[simp] theorem withHistory_spec : (s.withHistory q old).spec = s.spec := rfl

/-- An answer is appended to whatever responses were given before. -/
theorem answered_withHistory (c : FaultCode) (r0 r1 : Word) :
    (s.withHistory q old).answered c r0 r1 = (s.answered c r0 r1).withHistory q (old ++ [⟨c, r0, r1⟩]) := rfl

end

/-- The same end of a command, in a state with another history. -/
def Done.withHistory (q : List HostEvent) (old : List Response) : Done → Done
  | .ret s r0 r1 => .ret (s.withHistory q old) r0 r1
  | .raised s c => .raised (s.withHistory q old) c

/-! ### Command bodies that neither read nor change the history -/

/-- A command body that commutes with replacing the history. -/
def IgnoresHistory (body : State → Done) : Prop :=
  ∀ s q old, body (s.withHistory q old) = (body s).withHistory q old

theorem ignoresHistory_raised (c : FaultCode) : IgnoresHistory fun s => .raised s c := fun _ _ _ => rfl

theorem ignoresHistory_ite {c : State → Prop} {_ : DecidablePred c} {yes no : State → Done}
    (hc : ∀ s q old, c (s.withHistory q old) ↔ c s) (hyes : IgnoresHistory yes) (hno : IgnoresHistory no) :
    IgnoresHistory fun s => if c s then yes s else no s := by
  intro s q old
  by_cases h : c s
  · simp only [if_pos h, if_pos ((hc s q old).2 h), hyes s q old]
  · simp only [if_neg h, if_neg (mt (hc s q old).1 h), hno s q old]

/-- A check that raises a fault where it fails, the shape of most checks of the spec. -/
theorem ignoresHistory_guard {c : State → Prop} {_ : DecidablePred c} {code : FaultCode} {body : State → Done}
    (hc : ∀ s q old, c (s.withHistory q old) ↔ c s) (hbody : IgnoresHistory body) :
    IgnoresHistory fun s => if c s then .raised s code else body s :=
  ignoresHistory_ite hc (ignoresHistory_raised code) hbody

theorem ignoresHistory_withBandParams {band : Word} {f : State → Band → BandParams → Done}
    (hf : ∀ b p, IgnoresHistory fun s => f s b p) : IgnoresHistory fun s => withBandParams band s (f s) := by
  intro s q old
  unfold withBandParams
  cases bandOf band with
  | none => rfl
  | some b => exact hf b _ s q old

theorem ignoresHistory_withChannel {p : BandParams} {n : Word} {f : State → Nat → Done}
    (hf : ∀ k, IgnoresHistory fun s => f s k) : IgnoresHistory fun s => withChannel p n s (f s) :=
  ignoresHistory_ite (fun _ _ _ => Iff.rfl) (hf _) (ignoresHistory_raised _)

theorem ignoresHistory_withChanTable {band : Word} {f : State → Band → ChanTable → Done}
    (hf : ∀ b t, IgnoresHistory fun s => f s b t) : IgnoresHistory fun s => withChanTable band s (f s) := by
  intro s q old
  unfold withChanTable
  cases bandOf band with
  | none => rfl
  | some b =>
    simp only [withHistory_chan]
    cases s.chan.get b with
    | none => rfl
    | some t => exact hf b t s q old

theorem ignoresHistory_withSubslot {band n : Word} {slot subslot : Byte} {f : State → Band → ChanTable → Nat → Done}
    (hf : ∀ b t k, IgnoresHistory fun s => f s b t k) :
    IgnoresHistory fun s => withSubslot band n slot subslot s (f s) :=
  ignoresHistory_withChanTable fun b t => ignoresHistory_withChannel fun k =>
    ignoresHistory_guard (fun _ _ _ => Iff.rfl) <|
      ignoresHistory_guard (fun _ _ _ => Iff.rfl) (hf b t k)

theorem ignoresHistory_finishLoad {n : State → Nat} {B : State → Banks} (hn : ∀ s q old, n (s.withHistory q old) = n s)
    (hB : ∀ s q old, B (s.withHistory q old) = B s) : IgnoresHistory fun s => finishLoad (n s) (B s) s := by
  refine ignoresHistory_guard (fun s q old => ?_) (fun s q old => ?_)
  · rw [hn]; rfl
  · rw [hn, hB]; rfl

theorem ignoresHistory_loadFromBuffer (b : Bank) : IgnoresHistory (loadFromBuffer b) :=
  ignoresHistory_guard (fun _ _ _ => Iff.rfl) <|
    ignoresHistory_finishLoad (fun _ _ _ => rfl) (fun _ _ _ => rfl)

theorem ignoresHistory_storeToBuffer (b : Bank) : IgnoresHistory (storeToBuffer b) :=
  ignoresHistory_guard (fun _ _ _ => Iff.rfl) <|
    ignoresHistory_guard (fun _ _ _ => Iff.rfl) (fun _ _ _ => rfl)

theorem ignoresHistory_updatePower (band n : Word) (p : DWord) (f : Int → Int → Int) :
    IgnoresHistory (updatePower band n p f) :=
  ignoresHistory_withBandParams fun _ _ => ignoresHistory_withChannel fun _ =>
    ignoresHistory_guard (fun _ _ _ => Iff.rfl) <|
      ignoresHistory_guard (fun _ _ _ => Iff.rfl) (fun _ _ _ => rfl)

/-! ### Commands that answer once, whatever the history -/

/-- From every state there are a next state and one response, with values 0 and 0 where it is a fault, and they are the
same for every history: the response is appended, the events to come stay. -/
def AnswersBlindly (run : State → Host.Outcome State Fault Refusal) : Prop :=
  ∀ s : State, ∃ (t : State) (a : Response), (a.fault ≠ .ok → a.r0 = 0#32 ∧ a.r1 = 0#32)
    ∧ ∀ q old, run (s.withHistory q old) = .next (t.withHistory q (old ++ [a]))

/-- The frame of R110 and R310 adds the one response, and a response with a fault carries no values (R83). -/
theorem command_answersBlindly {body : State → Done} (hbody : IgnoresHistory body) : AnswersBlindly (command body) := by
  intro s
  cases hf : s.status.fatal with
  | true =>
    have hhalted : ∀ q old, (s.withHistory q old).status.fatal = true := fun _ _ => hf
    refine ⟨s.answered .halted 0#32 0#32, ⟨.halted, 0#32, 0#32⟩, fun _ => ⟨rfl, rfl⟩, fun q old => ?_⟩
    rw [command_halted body _ (hhalted q old), answered_withHistory]
  | false =>
    have hrun : ∀ q old, (s.withHistory q old).Running := fun _ _ => hf
    cases hb : body s with
    | ret s' r0 r1 =>
      refine ⟨s'.answered .ok r0 r1, ⟨.ok, r0, r1⟩, fun hne => absurd rfl hne, fun q old => ?_⟩
      have hb' := hbody s q old
      rw [hb] at hb'
      rw [command_ret (hrun q old) hb', answered_withHistory]
    | raised s' c =>
      refine ⟨s'.answered c 0#32 0#32, ⟨c, 0#32, 0#32⟩, fun _ => ⟨rfl, rfl⟩, fun q old => ?_⟩
      have hb' := hbody s q old
      rw [hb] at hb'
      rw [command_raised (hrun q old) hb', answered_withHistory]

/-- `STGET` answers outside that frame, with `STATUS` and no fault (R129). -/
theorem execStget_answersBlindly : AnswersBlindly execStget := fun s =>
  ⟨s, ⟨.ok, s.status.word.setWidth 32, 0#32⟩, fun hne => absurd rfl hne, fun _ _ => rfl⟩

/-- `CHINIT` may set `WARN` before the band lookup, also where that fails (R245, R303). -/
theorem execChinit_answersBlindly (band mu : Word) : AnswersBlindly (execChinit band mu) := by
  refine command_answersBlindly fun s q old => ?_
  unfold scaleOrWarn withBandParams
  cases muOf mu <;> cases bandOf band <;> rfl

theorem execChvalid_answersBlindly (band : Word) : AnswersBlindly (execChvalid band) := by
  refine command_answersBlindly fun s q old => ?_
  cases bandOf band with
  | none => rfl
  | some b =>
    simp only [withHistory_chan]
    cases s.chan.get b <;> rfl

theorem execChfreq_answersBlindly (n : Word) : AnswersBlindly (execChfreq n) := by
  refine command_answersBlindly fun s q old => ?_
  cases bandOfChannel n.toNat bandsAscending <;> rfl

theorem execChid_answersBlindly (f : Word) : AnswersBlindly (execChid f) := by
  refine command_answersBlindly fun s q old => ?_
  cases channelOfFreq f.toNat bandsAscending <;> rfl

theorem execSsset_answersBlindly (band n : Word) (slot subslot : Byte) (status : BitVec 2) (rssi : BitVec 16) :
    AnswersBlindly (execSsset band n slot subslot status rssi) := by
  refine command_answersBlindly <| ignoresHistory_withSubslot fun b t k s q old => ?_
  cases slotStatusOf status <;> rfl

theorem execRssi_answersBlindly (band n : Word) : AnswersBlindly (execRssi band n) := by
  refine command_answersBlindly <| ignoresHistory_withBandParams fun b _ => ignoresHistory_withChannel fun k s q old => ?_
  simp only [withHistory_spec]
  cases s.spec.get b <;> rfl

/-- Every instruction answers once, whatever the history. -/
theorem exec_answersBlindly (i : Instr) : AnswersBlindly (exec i) := by
  cases i with
  | nop | rst | get | size | tell | w2dbm | stclr => exact command_answersBlindly fun _ _ _ => rfl
  | set =>
    exact command_answersBlindly <|
      ignoresHistory_ite (fun _ _ _ => Iff.rfl) (fun _ _ _ => rfl) (ignoresHistory_raised _)
  | seek | bufrd => exact command_answersBlindly <| ignoresHistory_guard (fun _ _ _ => Iff.rfl) (fun _ _ _ => rfl)
  | bufwr =>
    exact command_answersBlindly <| ignoresHistory_guard (fun _ _ _ => Iff.rfl) <|
      ignoresHistory_guard (fun _ _ _ => Iff.rfl) (fun _ _ _ => rfl)
  | disp =>
    exact command_answersBlindly <| ignoresHistory_ite (fun _ _ _ => Iff.rfl) (fun _ _ _ => rfl) <|
      ignoresHistory_ite (fun _ _ _ => Iff.rfl) (fun _ _ _ => rfl) (ignoresHistory_raised _)
  | ser b => exact command_answersBlindly (ignoresHistory_storeToBuffer b)
  | des b => exact command_answersBlindly (ignoresHistory_loadFromBuffer b)
  | bandparm => exact command_answersBlindly <| ignoresHistory_withBandParams fun _ _ _ _ _ => rfl
  | cfreq | bin =>
    exact command_answersBlindly <| ignoresHistory_withBandParams fun _ _ => ignoresHistory_withChannel fun _ _ _ _ => rfl
  | ssget => exact command_answersBlindly <| ignoresHistory_withSubslot fun _ _ _ _ _ _ => rfl
  | tloc => exact command_answersBlindly <| ignoresHistory_withChanTable fun _ _ _ _ _ => rfl
  | pwadd band n p => exact command_answersBlindly (ignoresHistory_updatePower band n p _)
  | pwsub band n p => exact command_answersBlindly (ignoresHistory_updatePower band n p _)
  | chinit band mu => exact execChinit_answersBlindly band mu
  | chvalid band => exact execChvalid_answersBlindly band
  | chfreq n => exact execChfreq_answersBlindly n
  | chid f => exact execChid_answersBlindly f
  | ssset band n slot subslot status rssi => exact execSsset_answersBlindly band n slot subslot status rssi
  | rssi band n => exact execRssi_answersBlindly band n
  | stget => exact execStget_answersBlindly
  | mht | bh | uh | muxForm0 | muxForm1 | muxForm2 | muxForm3 | nb | cb | areq | arspReject | arspAccept | rar | rdc
  | aci => exact command_answersBlindly <| ignoresHistory_finishLoad (fun _ _ _ => rfl) (fun _ _ _ => rfl)

/-- The answer to an illegal record is that of a command that raises IllegalCommand at once (R110, R306). -/
theorem illegalRecord_eq_command (s : State) :
    .next (illegalRecord s) = command (fun s => .raised s .illegalCommand) s := rfl

/-- Every record, legal or not, is answered once, whatever the history. -/
theorem runRecord_answersBlindly (r : Record) : AnswersBlindly (runRecord r) := by
  unfold runRecord
  cases decodeRecord r with
  | ok i => exact exec_answersBlindly i
  | illegal why =>
    simp only [illegalRecord_eq_command]
    exact command_answersBlindly (ignoresHistory_raised .illegalCommand)

/-- With a record at the port, the step runs it on the state without it (R70). -/
theorem step_command {s : State} {r : Record} {rest : List HostEvent} (h : s.inbox = .command r :: rest) :
    step s = runRecord r (s.withHistory rest s.responses) := by
  unfold step
  rw [h]
  rfl

/-! ### The obligations -/

/-- Settles O7: the record at the port is answered once, and the answer is appended to the responses given before. -/
theorem everyRecordYieldsOneResponse : Obligations.EveryRecordYieldsOneResponse := by
  intro s r rest hport
  obtain ⟨t, a, hzero, hrun⟩ := runRecord_answersBlindly r s
  refine ⟨t.withHistory rest (s.responses ++ [a]), a, ?_, withHistory_responses .., withHistory_inbox .., hzero⟩
  rw [step_command hport, hrun]

/-- Settles O53: the run from `s` and the run with another history are two instances of one blind answer. -/
theorem historyIsNotRead : Obligations.HistoryIsNotRead := by
  intro i s t q old hexec
  obtain ⟨u, a, -, hrun⟩ := exec_answersBlindly i s
  have ht : t = u.withHistory s.inbox (s.responses ++ [a]) := by
    have hself := hrun s.inbox s.responses
    rw [withHistory_self, hexec] at hself
    exact Host.Outcome.next.inj hself
  subst ht
  exact ⟨a, withHistory_responses .., hrun q old⟩

end Sys2Proof.Machine

/-! PROOFS for the family 10_state.md. What a command can do to the state is said once, by `Change`: one constructor for each
way to write, with the guards under which the block writes so. Every command body ends within its instruction's changes
(`exec_endsWithin`), and the frame of R110 and R310 adds the answer (`exec_cases`). Which instruction writes what, and that
every step keeps the invariant, are then case analyses of `Change`, part by part of the state. -/

namespace Sys2Proof.Machine

/-! ### The bytes of a bank -/

/-- The bytes `SER` writes are as many as `SIZE` says (R115, R131). -/
theorem banks_enc_length (B : Banks) (b : Bank) : (B.enc b).length = B.size b := by
  cases b with
  | mht | bh | uh | rdc | aci => rfl
  | mux => exact encMux_length B.mux
  | nb => exact encNb_length B.nb
  | cb => exact encCb_length B.cb
  | areq => exact encAreq_length B.areq
  | arsp => exact encArsp_length B.arsp
  | rar => exact encRar_length B.rar

/-! ### The scaling factor of `CHINIT` (R246) -/

theorem legalMu_iff_mem (mu : Word) : LegalMu mu ↔ mu.toNat ∈ [1, 2, 4, 8] := by
  simp [LegalMu, ← BitVec.toNat_inj]

/-- An operand names the scaling factor of its number, or is not legal. -/
theorem muOf_cases (mu : Word) :
    (∃ m, muOf mu = some m ∧ m.toNat = mu.toNat ∧ LegalMu mu) ∨ (muOf mu = none ∧ ¬ LegalMu mu) := by
  by_cases hmu : LegalMu mu
  · left
    have hlegal := hmu
    rcases hmu with rfl | rfl | rfl | rfl
    · exact ⟨.mu1, rfl, rfl, hlegal⟩
    · exact ⟨.mu2, rfl, rfl, hlegal⟩
    · exact ⟨.mu4, rfl, rfl, hlegal⟩
    · exact ⟨.mu8, rfl, rfl, hlegal⟩
  · refine .inr ⟨?_, hmu⟩
    rw [legalMu_iff_mem] at hmu
    unfold muOf
    split <;> simp_all

section
variable (mu : Word) (s : State)

theorem scaleOrWarn_some {m : Mu} (h : muOf mu = some m) : scaleOrWarn mu s = (m, s) := by simp [scaleOrWarn, h]

theorem scaleOrWarn_none (h : muOf mu = none) :
    scaleOrWarn mu s = (.mu1, { s with status := s.status.setWarn }) := by simp [scaleOrWarn, h]

/-! All that the scaling factor can write is the warning -/
@[simp] theorem scaleOrWarn_banks : (scaleOrWarn mu s).2.banks = s.banks := by unfold scaleOrWarn; cases muOf mu <;> rfl
@[simp] theorem scaleOrWarn_cur : (scaleOrWarn mu s).2.cur = s.cur := by unfold scaleOrWarn; cases muOf mu <;> rfl
@[simp] theorem scaleOrWarn_buf : (scaleOrWarn mu s).2.buf = s.buf := by unfold scaleOrWarn; cases muOf mu <;> rfl
@[simp] theorem scaleOrWarn_chan : (scaleOrWarn mu s).2.chan = s.chan := by unfold scaleOrWarn; cases muOf mu <;> rfl
@[simp] theorem scaleOrWarn_spec : (scaleOrWarn mu s).2.spec = s.spec := by unfold scaleOrWarn; cases muOf mu <;> rfl
@[simp] theorem scaleOrWarn_fatal : (scaleOrWarn mu s).2.status.fatal = s.status.fatal := by
  unfold scaleOrWarn; cases muOf mu <;> rfl
@[simp] theorem scaleOrWarn_inbox : (scaleOrWarn mu s).2.inbox = s.inbox := by unfold scaleOrWarn; cases muOf mu <;> rfl
@[simp] theorem scaleOrWarn_epoch : (scaleOrWarn mu s).2.epoch = s.epoch := by unfold scaleOrWarn; cases muOf mu <;> rfl

end

/-! ### What an instruction can change -/

/-- The ways instruction `i` can change the state `s` of a running block, apart from its answer. -/
inductive Change (s : State) : Instr → State → Prop where
  /-- nothing is written: an instruction that only reads, or one that is refused -/
  | same {i : Instr} : Change s i s
  /-- R111 -/
  | clearBank (b : Bank) : Change s (.rst b) { s with banks := s.banks.clear b }
  /-- R112 -/
  | writeReg (r : Reg) (value : Word) : Change s (.set r value) { s with banks := s.banks.write value r }
  /-- R117 and log entry 2: banks are loaded and the cursor passes the structure, which fits -/
  | load {i : Instr} {b : Bank} (B : Banks) (n : Nat) (hi : i = .des b ∨ i.wireBank = some b)
      (hfit : s.cur.toNat + n ≤ Config.bufSize) : Change s i (setCur { s with banks := B } (s.cur.toNat + n))
  /-- R116 -/
  | store (b : Bank) (hfit : s.cur.toNat + s.banks.size b ≤ Config.bufSize) :
      Change s (.ser b)
        (setCur { s with buf := memWrite s.buf s.cur.toNat (s.banks.enc b) } (s.cur.toNat + s.banks.size b))
  /-- R123 -/
  | seek (addr : Word) (haddr : addr.toNat ≤ Config.bufSize) : Change s (.seek addr) (setCur s addr.toNat)
  /-- R125 -/
  | writeByte (addr value : Word) (haddr : addr.toNat < Config.bufSize) :
      Change s (.bufwr addr value) { s with buf := memWrite s.buf addr.toNat [value.setWidth 8] }
  /-- R128 -/
  | clearFaults : Change s .stclr (clearFaults s)
  /-- R246, R303: the warning of a `CHINIT` whose band is unsupported -/
  | warn (band mu : Word) : Change s (.chinit band mu) (scaleOrWarn mu s).2
  /-- R245 -/
  | buildChannels (band mu : Word) (b : Band) :
      Change s (.chinit band mu)
        { (scaleOrWarn mu s).2 with
          chan := s.chan.set (some (ChanTable.built (scaleOrWarn mu s).1)) b }
  /-- R253 -/
  | writeSubslot (band n : Word) (slot subslot : Byte) (status : BitVec 2) (rssi : BitVec 16) {b : Band} {t : ChanTable}
      {k : Nat} (st : SlotStatus) (ht : s.chan.get b = some t) (hk : k ≤ (Config.bandTable b).lastIndex)
      (hslot : slot.toNat < Config.slotsPerFrame) (hsubslot : subslot.toNat < t.mu.subslots) :
      Change s (.ssset band n slot subslot status rssi)
        { s with
          chan := s.chan.set
            (some (t.setSub k slot.toNat subslot.toNat
              { t.sub k slot.toNat subslot.toNat with status := st, rssi := rssi })) b }
  /-- R282, R283 -/
  | writePower {i : Instr} {band n : Word} {p : DWord} {b : Band} {k : Nat} (a : Int)
      (hi : i = .pwadd band n p ∨ i = .pwsub band n p) (hk : k ≤ (Config.bandTable b).lastIndex) :
      Change s i (storeAccumulator s b k a)

/-- A command body ends within the changes of its instruction; Halted is never a fault of its own, since only the frame
of R110 answers it (R307). -/
def Done.Within (s : State) (i : Instr) : Done → Prop
  | .ret u _ _ => Change s i u
  | .raised u c => Change s i u ∧ c ≠ .halted

/-! ### The shared operations end within the changes of their instructions -/

section
variable {s : State} {i : Instr}

theorem raised_within {c : FaultCode} (hc : c ≠ .halted) : (Done.raised s c).Within s i := ⟨.same, hc⟩

theorem withBandParams_within {band : Word} {f : Band → BandParams → Done}
    (hf : ∀ b, (f b (Config.bandTable b)).Within s i) : (withBandParams band s f).Within s i := by
  rcases band_cases band with ⟨b, rfl⟩ | hband
  · rw [withBandParams_bandWord]
    exact hf b
  · rw [withBandParams_unsupported band s f hband]
    exact raised_within (by decide)

theorem withChannel_within {b : Band} {n : Word} {f : Nat → Done}
    (hf : ∀ k, k ≤ (Config.bandTable b).lastIndex → (f k).Within s i) :
    (withChannel (Config.bandTable b) n s f).Within s i := by
  by_cases hn : InBand b n
  · rw [withChannel_in b n s f hn]
    exact hf _ (channelIndex_le b n hn)
  · rw [withChannel_out b n s f hn]
    exact raised_within (by decide)

theorem withChanTable_within {band : Word} {f : Band → ChanTable → Done}
    (hf : ∀ b t, s.chan.get b = some t → (f b t).Within s i) : (withChanTable band s f).Within s i := by
  rcases band_cases band with ⟨b, rfl⟩ | hband
  · cases ht : s.chan.get b with
    | none =>
      rw [withChanTable_none b s f ht]
      exact raised_within (by decide)
    | some t =>
      rw [withChanTable_init b s t f ht]
      exact hf b t ht
  · rw [withChanTable_unsupported band s f hband]
    exact raised_within (by decide)

theorem withSubslot_within {band n : Word} {slot subslot : Byte} {f : Band → ChanTable → Nat → Done}
    (hf : ∀ b t k, s.chan.get b = some t → k ≤ (Config.bandTable b).lastIndex → slot.toNat < Config.slotsPerFrame →
      subslot.toNat < t.mu.subslots → (f b t k).Within s i) : (withSubslot band n slot subslot s f).Within s i := by
  refine withChanTable_within fun b t ht => withChannel_within fun k hk => ?_
  split
  · exact raised_within (by decide)
  · split
    · exact raised_within (by decide)
    · exact hf b t k ht hk (by omega) (by omega)

theorem finishLoad_within {b : Bank} {n : Nat} {B : Banks} (hi : i = .des b ∨ i.wireBank = some b) :
    (finishLoad n B s).Within s i := by
  by_cases hfit : s.cur.toNat + n ≤ Config.bufSize
  · rw [finishLoad_fits n B s hfit]
    exact .load B n hi hfit
  · rw [finishLoad_overrun n B s (by omega)]
    exact raised_within (by decide)

theorem loadFromBuffer_within (b : Bank) : (loadFromBuffer b s).Within s (.des b) := by
  unfold loadFromBuffer
  split
  · exact raised_within (by decide)
  · exact finishLoad_within (.inl rfl)

theorem storeToBuffer_within (b : Bank) : (storeToBuffer b s).Within s (.ser b) := by
  unfold storeToBuffer
  split
  · exact raised_within (by decide)
  · dsimp only
    split
    · exact raised_within (by decide)
    · exact .store b (by omega)

theorem updatePower_within {band n : Word} {p : DWord} {f : Int → Int → Int}
    (hi : i = .pwadd band n p ∨ i = .pwsub band n p) : (updatePower band n p f s).Within s i := by
  refine withBandParams_within fun b => withChannel_within fun k hk => ?_
  split
  · exact raised_within (by decide)
  · dsimp only
    split
    · exact raised_within (by decide)
    · exact .writePower _ hi hk

end

/-! ### Every instruction ends within its changes -/

/-- An instruction that runs under the frame of R110, with a body that ends within its changes. -/
def EndsWithin (i : Instr) : Prop := ∃ body : State → Done, exec i = command body ∧ ∀ s, (body s).Within s i

theorem chinit_endsWithin (band mu : Word) : EndsWithin (.chinit band mu) := by
  refine ⟨_, rfl, fun s => ?_⟩
  rcases band_cases band with ⟨b, rfl⟩ | hband
  · rw [withBandParams_bandWord]
    simpa only [Done.Within, scaleOrWarn_chan] using Change.buildChannels (bandWord b) mu b
  · rw [withBandParams_unsupported _ _ _ hband]
    exact ⟨.warn band mu, by decide⟩

theorem chvalid_endsWithin (band : Word) : EndsWithin (.chvalid band) := by
  refine ⟨_, rfl, fun s => ?_⟩
  cases bandOf band with
  | none => exact .same
  | some b =>
    dsimp only
    cases s.chan.get b with
    | none | some => exact .same

theorem chfreq_endsWithin (n : Word) : EndsWithin (.chfreq n) := by
  refine ⟨_, rfl, fun s => ?_⟩
  cases bandOfChannel n.toNat bandsAscending with
  | none => exact raised_within (by decide)
  | some => exact .same

theorem chid_endsWithin (f : Word) : EndsWithin (.chid f) := by
  refine ⟨_, rfl, fun s => ?_⟩
  cases channelOfFreq f.toNat bandsAscending with
  | none => exact raised_within (by decide)
  | some => exact .same

theorem rssi_endsWithin (band n : Word) : EndsWithin (.rssi band n) := by
  refine ⟨_, rfl, fun s => withBandParams_within fun b => withChannel_within fun k _ => ?_⟩
  cases s.spec.get b with
  | none | some => exact .same

theorem ssset_endsWithin (band n : Word) (slot subslot : Byte) (status : BitVec 2) (rssi : BitVec 16) :
    EndsWithin (.ssset band n slot subslot status rssi) := by
  refine ⟨_, rfl, fun s => withSubslot_within fun b t k ht hk hslot hsubslot => ?_⟩
  cases slotStatusOf status with
  | none => exact raised_within (by decide)
  | some st => exact .writeSubslot band n slot subslot status rssi st ht hk hslot hsubslot

theorem set_endsWithin (r : Reg) (value : Word) : EndsWithin (.set r value) := by
  refine ⟨_, rfl, fun s => ?_⟩
  split
  · exact .writeReg r value
  · exact raised_within (by decide)

theorem disp_endsWithin (b : Bank) : EndsWithin (.disp b) := by
  refine ⟨_, rfl, fun s => ?_⟩
  split
  · exact .same
  · split
    · exact .same
    · exact raised_within (by decide)

theorem seek_endsWithin (addr : Word) : EndsWithin (.seek addr) := by
  refine ⟨_, rfl, fun s => ?_⟩
  split
  · exact raised_within (by decide)
  · exact .seek addr (by omega)

theorem bufwr_endsWithin (addr value : Word) : EndsWithin (.bufwr addr value) := by
  refine ⟨_, rfl, fun s => ?_⟩
  split
  · exact raised_within (by decide)
  · split
    · exact raised_within (by decide)
    · exact .writeByte addr value (by omega)

theorem bufrd_endsWithin (addr : Word) : EndsWithin (.bufrd addr) := by
  refine ⟨_, rfl, fun s => ?_⟩
  split
  · exact raised_within (by decide)
  · exact .same

/-- Every instruction but `STGET`, which runs outside the frame of R110. -/
theorem exec_endsWithin {i : Instr} (hi : i ≠ .stget) : EndsWithin i := by
  cases i with
  | stget => exact absurd rfl hi
  | nop | get | size | tell | w2dbm => exact ⟨_, rfl, fun _ => .same⟩
  | rst b => exact ⟨_, rfl, fun _ => .clearBank b⟩
  | set r value => exact set_endsWithin r value
  | ser b => exact ⟨_, rfl, fun _ => storeToBuffer_within b⟩
  | des b => exact ⟨_, rfl, fun _ => loadFromBuffer_within b⟩
  | disp b => exact disp_endsWithin b
  | seek addr => exact seek_endsWithin addr
  | bufwr addr value => exact bufwr_endsWithin addr value
  | bufrd addr => exact bufrd_endsWithin addr
  | chinit band mu => exact chinit_endsWithin band mu
  | chvalid band => exact chvalid_endsWithin band
  | bandparm => exact ⟨_, rfl, fun _ => withBandParams_within fun _ => .same⟩
  | cfreq | bin => exact ⟨_, rfl, fun _ => withBandParams_within fun _ => withChannel_within fun _ _ => .same⟩
  | chfreq n => exact chfreq_endsWithin n
  | chid f => exact chid_endsWithin f
  | ssget => exact ⟨_, rfl, fun _ => withSubslot_within fun _ _ _ _ _ _ _ => .same⟩
  | ssset band n slot subslot status rssi => exact ssset_endsWithin band n slot subslot status rssi
  | tloc => exact ⟨_, rfl, fun _ => withChanTable_within fun _ _ _ => .same⟩
  | pwadd => exact ⟨_, rfl, fun _ => updatePower_within (.inl rfl)⟩
  | pwsub => exact ⟨_, rfl, fun _ => updatePower_within (.inr rfl)⟩
  | rssi band n => exact rssi_endsWithin band n
  | stclr => exact ⟨_, rfl, fun _ => .clearFaults⟩
  | mht | bh | uh | muxForm0 | muxForm1 | muxForm2 | muxForm3 | nb | cb | areq | arspReject | arspAccept | rar | rdc
  | aci => exact ⟨_, rfl, fun _ => finishLoad_within (.inr rfl)⟩

/-- Everything an instruction can do: `STGET` gives a response only; any other makes one of its changes and answers, with
Halted exactly while the block is halted (R110, R307). -/
theorem exec_cases {i : Instr} {s t : State} (h : exec i s = .next t) :
    (∃ a, t = respond s a)
    ∨ ∃ u c r0 r1, Change s i u ∧ (s.status.fatal = true ↔ c = .halted) ∧ t = u.answered c r0 r1 := by
  by_cases hi : i = .stget
  · subst hi
    cases h
    exact .inl ⟨_, rfl⟩
  · obtain ⟨body, hbody, hwithin⟩ := exec_endsWithin hi
    rw [hbody] at h
    have hend := hwithin s
    rcases command_cases h with ⟨hf, ht⟩ | ⟨hrun, u, r0, r1, hb, ht⟩ | ⟨hrun, u, c, hb, ht⟩
    · exact .inr ⟨s, .halted, 0#32, 0#32, .same, by simp [hf], ht⟩
    · rw [hb] at hend
      exact .inr ⟨u, .ok, r0, r1, hend, by simp [show s.status.fatal = false from hrun], ht⟩
    · rw [hb] at hend
      obtain ⟨hchange, hc⟩ := hend
      exact .inr ⟨u, c, 0#32, 0#32, hchange, by simp [show s.status.fatal = false from hrun, hc], ht⟩

/-! ### Which instruction changes which part of the state -/

namespace Change

variable {s u : State} {i : Instr}

theorem banks_eq (h : Change s i u) (hrst : ∀ b, i ≠ .rst b) (hset : ∀ r v, i ≠ .set r v) (hdes : ∀ b, i ≠ .des b)
    (hwire : i.wireBank = none) : u.banks = s.banks := by
  cases h with
  | clearBank b => exact absurd rfl (hrst b)
  | writeReg r value => exact absurd rfl (hset r value)
  | load B n hi => rcases hi with hi | hi <;> simp_all
  | warn | buildChannels => simp
  | _ => rfl

theorem cur_eq (h : Change s i u) (hseek : ∀ a, i ≠ .seek a) (hser : ∀ b, i ≠ .ser b) (hdes : ∀ b, i ≠ .des b)
    (hwire : i.wireBank = none) : u.cur = s.cur := by
  cases h with
  | seek addr => exact absurd rfl (hseek addr)
  | store b => exact absurd rfl (hser b)
  | load B n hi => rcases hi with hi | hi <;> simp_all
  | warn | buildChannels => simp
  | _ => rfl

theorem buf_eq (h : Change s i u) (hser : ∀ b, i ≠ .ser b) (hbufwr : ∀ a v, i ≠ .bufwr a v) : u.buf = s.buf := by
  cases h with
  | store b => exact absurd rfl (hser b)
  | writeByte addr value => exact absurd rfl (hbufwr addr value)
  | warn | buildChannels => simp
  | _ => rfl

theorem chan_eq (h : Change s i u) (hchinit : ∀ b m, i ≠ .chinit b m) (hssset : ∀ b n v w c r, i ≠ .ssset b n v w c r) :
    u.chan = s.chan := by
  cases h with
  | warn band mu | buildChannels band mu => exact absurd rfl (hchinit band mu)
  | writeSubslot => exact (hssset _ _ _ _ _ _ rfl).elim
  | _ => rfl

theorem spec_eq (h : Change s i u) (hpwadd : ∀ b n p, i ≠ .pwadd b n p) (hpwsub : ∀ b n p, i ≠ .pwsub b n p) :
    u.spec = s.spec := by
  cases h with
  | writePower a hi =>
    rcases hi with hi | hi
    · exact (hpwadd _ _ _ hi).elim
    · exact (hpwsub _ _ _ hi).elim
  | warn | buildChannels => simp
  | _ => rfl

/-- No instruction halts the block or lets it go on but by its answer, takes records from the host or is a reset. -/
theorem fatal_inbox_epoch_eq (h : Change s i u) :
    u.status.fatal = s.status.fatal ∧ u.inbox = s.inbox ∧ u.epoch = s.epoch := by
  cases h with
  | warn | buildChannels => simp
  | _ => exact ⟨rfl, rfl, rfl⟩

end Change

/-! ### Every change keeps the canonical forms -/

/-- What holds of every band that has a table still holds when one band is given a table of which it holds. -/
theorem perBand_set_forall {α : Type} {P : Band → α → Prop} {p : PerBand (Option α)} {b : Band} {v : α}
    (hp : ∀ b' x, p.get b' = some x → P b' x) (hv : P b v) : ∀ b' x, (p.set (some v) b).get b' = some x → P b' x := by
  intro b' x hx
  rw [perBand_get_set] at hx
  split at hx
  · cases hx
    subst b'
    exact hv
  · exact hp b' x hx

namespace Change

variable {s u : State} {i : Instr}

theorem cur_le (h : Change s i u) (hs : s.cur.toNat ≤ Config.bufSize) : u.cur.toNat ≤ Config.bufSize := by
  cases h with
  | load B n hi hfit | store b hfit => rwa [setCur_cur_toNat _ _ hfit]
  | seek addr haddr => rwa [setCur_cur_toNat _ _ haddr]
  | warn | buildChannels => simpa using hs
  | _ => exact hs

theorem buf_wf (h : Change s i u) (hs : Memory.wf s.buf = true) : Memory.wf u.buf = true := by
  cases h with
  | store b hfit => exact Memory.wf_memWrite _ _ _ hs (by rwa [banks_enc_length])
  | writeByte addr value haddr => exact Memory.wf_memWrite _ _ _ hs haddr
  | warn | buildChannels => simpa using hs
  | _ => exact hs

/-- `CHINIT` builds a canonical table, and `SSSET` keeps a record's duration (R245, R253). -/
theorem chan_wf (h : Change s i u) (hs : ∀ b t, s.chan.get b = some t → t.WellFormed (Config.bandTable b)) :
    ∀ b t, u.chan.get b = some t → t.WellFormed (Config.bandTable b) := by
  cases h with
  | warn => simpa using hs
  | buildChannels => exact perBand_set_forall hs (built_wellFormed _ _)
  | writeSubslot band n slot subslot status rssi st ht hk hslot hsubslot =>
    have htable := hs _ _ ht
    exact perBand_set_forall hs (setSub_wellFormed _ _ _ _ _ _ htable hk hslot hsubslot (sub_duration _ _ htable _ _ _))
  | _ => exact hs

/-- The accumulator `PWADD` and `PWSUB` write is one of a channel that exists, in a model that may be new (R281). -/
theorem spec_wf (h : Change s i u) (hs : ∀ b m, s.spec.get b = some m → m.WellFormed (Config.bandTable b)) :
    ∀ b m, u.spec.get b = some m → m.WellFormed (Config.bandTable b) := by
  cases h with
  | @writePower _ _ _ _ b k a hi hk =>
    have hmodel : ((s.spec.get b).getD SpecModel.created).WellFormed (Config.bandTable b) := by
      cases hm : s.spec.get b with
      | none => exact created_wellFormed _
      | some m => exact hs b m hm
    exact perBand_set_forall hs (setAcc_wellFormed _ _ _ _ hmodel hk)
  | warn | buildChannels => simpa using hs
  | _ => exact hs

end Change

/-- The end of a command leaves `STATUS` consistent whatever it was, if Halted answers exactly a halted block (R310, R311). -/
theorem record_consistent {st : Status} {c : FaultCode} (h : st.fatal = true ↔ c = .halted) :
    (st.record c).Consistent where
  seen hc := by simp [show c ≠ .ok from hc]
  halted := by
    simp only [record_fatal, record_lastFault, Bool.or_eq_true, decide_eq_true_eq, h]
    exact or_comm

theorem Change.answered_inv {s u : State} {i : Instr} {c : FaultCode} {r0 r1 : Word} (h : Change s i u) (hs : s.Inv)
    (hc : s.status.fatal = true ↔ c = .halted) : (u.answered c r0 r1).Inv where
  cur_le := h.cur_le hs.cur_le
  buf_wf := h.buf_wf hs.buf_wf
  chan_wf := h.chan_wf hs.chan_wf
  spec_wf := h.spec_wf hs.spec_wf
  status_ok := by
    obtain ⟨hfatal, -, -⟩ := h.fatal_inbox_epoch_eq
    exact record_consistent (hfatal ▸ hc)

/-! ### Every step keeps the invariant -/

theorem withHistory_inv {s : State} (hs : s.Inv) (q : List HostEvent) (old : List Response) : (s.withHistory q old).Inv :=
  ⟨hs.cur_le, hs.buf_wf, hs.chan_wf, hs.spec_wf, hs.status_ok⟩

theorem exec_inv {i : Instr} {s t : State} (hs : s.Inv) (h : exec i s = .next t) : t.Inv := by
  rcases exec_cases h with ⟨a, rfl⟩ | ⟨u, c, r0, r1, hchange, hc, rfl⟩
  · exact withHistory_inv hs s.inbox (s.responses ++ [a])
  · exact hchange.answered_inv hs hc

/-- The answer to an illegal record changes nothing else (R306, R309). -/
theorem illegalRecord_inv {s : State} (hs : s.Inv) : (illegalRecord s).Inv := by
  have hsame : Change s .nop s := .same
  unfold illegalRecord
  split
  case isTrue hf => exact hsame.answered_inv hs (by simp [hf])
  case isFalse hf => exact hsame.answered_inv hs (by simp [hf])

theorem runRecord_inv {r : Record} {s t : State} (hs : s.Inv) (h : runRecord r s = .next t) : t.Inv := by
  unfold runRecord at h
  split at h
  · exact exec_inv hs h
  · cases h
    exact illegalRecord_inv hs

/-- Settles O54: reset leaves no table, an empty buffer and no fault. -/
theorem resetSatisfiesInvariant : Obligations.ResetSatisfiesInvariant where
  cur_le := by decide
  buf_wf := rfl
  chan_wf b t h := by cases b <;> cases h
  spec_wf b m h := by cases b <;> cases h
  status_ok := ⟨by decide, by decide⟩

theorem resetInput_inv (s : State) : (resetInput s).Inv :=
  have h : State.reset.Inv := resetSatisfiesInvariant
  ⟨h.cur_le, h.buf_wf, h.chan_wf, h.spec_wf, h.status_ok⟩

/-- Settles O55: a step holds the state, runs the record at the port, or takes the reset input. -/
theorem stepKeepsInvariant : Obligations.StepKeepsInvariant := by
  intro s t hs hstep
  cases hport : s.inbox with
  | nil =>
    rw [step, hport] at hstep
    cases hstep
    exact hs
  | cons event rest =>
    cases event with
    | command r =>
      rw [step_command hport] at hstep
      exact runRecord_inv (withHistory_inv hs ..) hstep
    | reset =>
      rw [step, hport] at hstep
      cases hstep
      exact resetInput_inv _

/-- Settles O52: the answer writes `STATUS` and the responses only, so the rest is what the instruction's change writes. -/
theorem eachPartHasItsWriters : Obligations.EachPartHasItsWriters := by
  intro i s t h
  rcases exec_cases h with ⟨a, rfl⟩ | ⟨u, c, r0, r1, hchange, -, rfl⟩
  · exact ⟨fun _ _ _ _ => rfl, fun _ _ _ _ => rfl, fun _ _ _ => rfl, fun _ _ => rfl, fun _ _ => rfl, rfl, rfl⟩
  · obtain ⟨-, hinbox, hepoch⟩ := hchange.fatal_inbox_epoch_eq
    exact ⟨hchange.banks_eq, hchange.cur_eq, fun hser hbufwr => bufByte_congr _ _ (hchange.buf_eq hser hbufwr) hepoch,
      hchange.chan_eq, hchange.spec_eq, hinbox, hepoch⟩

/-! ### `CHINIT` (R245, R246) -/

theorem exec_chinit (band mu : Word) (s : State) : exec (.chinit band mu) s = execChinit band mu s := rfl

section
variable {s : State}

theorem exec_chinit_supported (hrun : s.Running) (b : Band) (mu : Word) :
    exec (.chinit (bandWord b) mu) s = .next
      (({ (scaleOrWarn mu s).2 with
          chan := s.chan.set (some (ChanTable.built (scaleOrWarn mu s).1)) b } : State).answered .ok
        (BandParams.countWord (Config.bandTable b)) (BitVec.ofNat 32 (scaleOrWarn mu s).1.subslots)) := by
  rw [exec_chinit, execChinit]
  refine command_ret hrun ?_
  rw [withBandParams_bandWord, scaleOrWarn_chan]

theorem exec_chinit_unsupported (hrun : s.Running) {band : Word} (hband : Unsupported band) (mu : Word) :
    exec (.chinit band mu) s = .next ((scaleOrWarn mu s).2.answered .fatalConfiguration 0#32 0#32) := by
  rw [exec_chinit, execChinit]
  exact command_raised hrun (withBandParams_unsupported _ _ _ hband)

end

/-- Settles O35: the scaling factor is taken first, with its warning, then the band is looked up. -/
theorem chinitBuildsChannelList : Obligations.ChinitBuildsChannelList := by
  refine ⟨fun band mu a2 a3 => by rw [decodeRecord_packRecord]; rfl, fun s b mu hrun => ?_, fun s band mu hrun hband => ?_⟩
  · have hexec := exec_chinit_supported hrun b mu
    rcases muOf_cases mu with ⟨m, hm, hnum, hlegal⟩ | ⟨hm, hillegal⟩
    · rw [scaleOrWarn_some mu s hm] at hexec
      refine ⟨_, ChanTable.built m, m.toNat, hexec, fun _ => hnum, fun h => absurd hlegal h, ?_, rfl, fun _ _ _ => rfl⟩
      have hwarn : (s.status.warn || decide (¬ mu.toNat ∈ [1, 2, 4, 8])) = s.status.warn := by
        rw [decide_eq_false (not_not.2 ((legalMu_iff_mem mu).1 hlegal)), Bool.or_false]
      rw [hwarn]
      rfl
    · rw [scaleOrWarn_none mu s hm] at hexec
      refine ⟨_, ChanTable.built .mu1, 1, hexec, fun h => absurd h hillegal, fun _ => rfl, ?_, rfl, fun _ _ _ => rfl⟩
      have hwarn : (s.status.warn || decide (¬ mu.toNat ∈ [1, 2, 4, 8])) = true := by
        rw [decide_eq_true (mt (legalMu_iff_mem mu).2 hillegal), Bool.or_true]
      rw [hwarn]
      rfl
  · have hexec := exec_chinit_unsupported hrun hband mu
    rcases muOf_cases mu with ⟨m, hm, -, hlegal⟩ | ⟨hm, hillegal⟩
    · rw [scaleOrWarn_some mu s hm] at hexec
      exact ⟨fun _ => hexec, fun h => absurd hlegal h⟩
    · rw [scaleOrWarn_none mu s hm] at hexec
      exact ⟨fun h => absurd h hillegal, fun _ => hexec⟩

/-! ### `SSGET` and `SSSET` (R252, R253) -/

/-- The `slotsub` operand gives back its slot and its subslot (R82). -/
theorem withSlotSub_slotSubOperand (slot subslot : Byte) (f : Byte → Byte → Decoded) :
    withSlotSub (slotSubOperand slot subslot) f = f slot subslot := by
  have hzero : (slotSubOperand slot subslot).extractLsb' 16 16 = 0#16 :=
    (extract_append_above (0#16 ++ slot) subslot (by decide)).trans (extract_append_high _ _)
  have hslot : (slotSubOperand slot subslot).extractLsb' 8 8 = slot :=
    (extract_append_above (0#16 ++ slot) subslot (by decide)).trans (extract_append_low _ _)
  have hsubslot : (slotSubOperand slot subslot).extractLsb' 0 8 = subslot := extract_append_low _ _
  rw [withSlotSub, if_pos hzero, hslot, hsubslot]

/-- The operand of `SSSET` gives back its status and its RSSI, above them zeros (R82, R88). -/
theorem extract_statusRssiOperand (code : BitVec 2) (rssi : BitVec 16) :
    (statusRssiOperand code rssi).extractLsb' 18 14 = 0#14 ∧ (statusRssiOperand code rssi).extractLsb' 16 2 = code
    ∧ (statusRssiOperand code rssi).extractLsb' 0 16 = rssi :=
  ⟨(extract_append_above (0#14 ++ code) rssi (by decide)).trans (extract_append_high _ _),
    (extract_append_above (0#14 ++ code) rssi (by decide)).trans (extract_append_low _ _), extract_append_low _ _⟩

theorem decodeOperands_ssget (a0 a1 a2 a3 : Word) :
    decodeOperands 0x17#8 a0 a1 a2 a3 =
      withSlotSub a2 fun slot sub => withSel (SubslotSel.ofSel a3.toNat) fun x => .ok (.ssget a0 a1 slot sub x) := rfl

theorem decodeOperands_ssset (a0 a1 a2 a3 : Word) :
    decodeOperands 0x18#8 a0 a1 a2 a3 =
      withSlotSub a2 fun slot sub =>
        if a3.extractLsb' 18 14 = 0#14 then .ok (.ssset a0 a1 slot sub (a3.extractLsb' 16 2) (a3.extractLsb' 0 16))
        else .illegal .mustBeZero := rfl

theorem decode_ssget (band n : Word) (slot subslot : Byte) (x : SubslotSel) :
    decodeRecord (packRecord 0x17#8 (band, n, slotSubOperand slot subslot, x.sel)) = .ok (.ssget band n slot subslot x) := by
  rw [decodeRecord_packRecord, decodeOperands_ssget, withSlotSub_slotSubOperand, SubslotSel.ofSel_sel]
  rfl

theorem decode_ssset (band n : Word) (slot subslot : Byte) (code : BitVec 2) (rssi : BitVec 16) :
    decodeRecord (packRecord 0x18#8 (band, n, slotSubOperand slot subslot, statusRssiOperand code rssi)) =
      .ok (.ssset band n slot subslot code rssi) := by
  obtain ⟨hzero, hcode, hrssi⟩ := extract_statusRssiOperand code rssi
  rw [decodeRecord_packRecord, decodeOperands_ssset, withSlotSub_slotSubOperand, if_pos hzero, hcode, hrssi]

theorem exec_ssget (band n : Word) (slot subslot : Byte) (x : SubslotSel) (s : State) :
    exec (.ssget band n slot subslot x) s = execSsget band n slot subslot x s := rfl

theorem exec_ssset (band n : Word) (slot subslot : Byte) (code : BitVec 2) (rssi : BitVec 16) (s : State) :
    exec (.ssset band n slot subslot code rssi) s = execSsset band n slot subslot code rssi s := rfl

section
variable {s : State} {b : Band} {t : ChanTable} {n : Word} {slot subslot : Byte}

/-- `SSGET` of a subslot that exists. -/
theorem exec_ssget_ok (hrun : s.Running) (ht : s.chan.get b = some t) (hn : InBand b n)
    (hslot : slot.toNat < Config.slotsPerFrame) (hsubslot : subslot.toNat < t.mu.subslots) (x : SubslotSel) :
    exec (.ssget (bandWord b) n slot subslot x) s =
      .next (s.answered .ok (SubRec.field (t.sub (channelIndex b n) slot.toNat subslot.toNat) x) 0#32) := by
  rw [exec_ssget, execSsget]
  exact command_ret hrun (withSubslot_ok b n slot subslot s t _ ht hn hslot hsubslot)

/-- `SSSET` of a subslot that exists, with a status that is one. -/
theorem exec_ssset_ok (hrun : s.Running) (ht : s.chan.get b = some t) (hn : InBand b n)
    (hslot : slot.toNat < Config.slotsPerFrame) (hsubslot : subslot.toNat < t.mu.subslots) {code : BitVec 2}
    {st : SlotStatus} (hst : slotStatusOf code = some st) (rssi : BitVec 16) :
    exec (.ssset (bandWord b) n slot subslot code rssi) s =
      .next (({ s with
        chan := s.chan.set
          (some (t.setSub (channelIndex b n) slot.toNat subslot.toNat
            { t.sub (channelIndex b n) slot.toNat subslot.toNat with status := st, rssi := rssi })) b } : State).answered
        .ok 0#32 0#32) := by
  rw [exec_ssset, execSsset]
  refine command_ret hrun ?_
  rw [withSubslot_ok b n slot subslot s t _ ht hn hslot hsubslot, hst]

/-- `SSSET` of a subslot that exists, with the code that is no status. -/
theorem exec_ssset_noStatus (hrun : s.Running) (ht : s.chan.get b = some t) (hn : InBand b n)
    (hslot : slot.toNat < Config.slotsPerFrame) (hsubslot : subslot.toNat < t.mu.subslots) {code : BitVec 2}
    (hst : slotStatusOf code = none) (rssi : BitVec 16) :
    exec (.ssset (bandWord b) n slot subslot code rssi) s = .next (s.answered .invalidArgument 0#32 0#32) := by
  rw [exec_ssset, execSsset]
  refine command_raised hrun ?_
  rw [withSubslot_ok b n slot subslot s t _ ht hn hslot hsubslot, hst]

end

/-- A status code is that of one status, or 3 (R43). -/
theorem slotStatusOf_cases (code : BitVec 2) :
    (∃ st, slotStatusOf code = some st ∧ st.code = code ∧ code.toNat ≤ 2) ∨ (slotStatusOf code = none ∧ code.toNat = 3) := by
  revert code
  decide

/-- Settles O41: the answer is one field of the record, widened as the field is (R88). -/
theorem ssgetAnswersSubslotField : Obligations.SsgetAnswersSubslotField := by
  refine ⟨fun band n slot subslot => ⟨decode_ssget band n slot subslot .status, decode_ssget band n slot subslot .rssi,
    decode_ssget band n slot subslot .duration⟩, fun s b t n slot subslot hrun ht hn hslot hsubslot => ?_⟩
  have hexec := exec_ssget_ok hrun ht hn hslot hsubslot
  simp only [BitVec.ofNat_toNat]
  exact ⟨hexec .status, hexec .rssi, hexec .duration⟩

/-- Settles O42: the write of one subslot, read back at every subslot by the law of the table. -/
theorem sssetWritesOneSubslot : Obligations.SssetWritesOneSubslot := by
  refine ⟨decode_ssset, fun s b t n slot subslot code rssi hrun ht hwf hn hslot hsubslot => ?_⟩
  rcases slotStatusOf_cases code with ⟨st, hst, hcode, hle⟩ | ⟨hst, hthree⟩
  · refine ⟨fun _ => ⟨_, st, exec_ssset_ok hrun ht hn hslot hsubslot hst rssi, hcode, setSub_mu .., fun k v j hv hj => ?_⟩,
      fun h => by omega⟩
    have hsubslot16 : subslot.toNat < 16 := Nat.lt_of_lt_of_le hsubslot t.mu.subslots_le
    exact sub_setSub t _ _ _ k v j _ hwf.1 hslot hv hsubslot16 hj
  · exact ⟨fun h => by omega, fun _ => exec_ssset_noStatus hrun ht hn hslot hsubslot hst rssi⟩

/-! ### Reset and `STGET` -/

/-- Every field register of cleared banks reads 0 (R40). -/
theorem read_cleared (r : Reg) : ({} : Banks).read r = 0#32 := by
  cases r with
  | nb f =>
    cases f with
    | additionalChannel i => cases i <;> rfl
    | _ => rfl
  | areq f =>
    cases f with
    | flowId i => cases i <;> rfl
    | _ => rfl
  | arsp f =>
    cases f with
    | flowId i => cases i <;> rfl
    | _ => rfl
  | _ f => cases f <;> rfl

/-- Settles O1: the registers are those of cleared banks, and the empty buffer lists no byte. -/
theorem resetLeavesAllClear : Obligations.ResetLeavesAllClear :=
  ⟨read_cleared, rfl, rfl, fun b => by cases b <;> exact ⟨rfl, rfl⟩, fun _ => rfl⟩

/-- The `STATUS` word as a number (R36). -/
theorem status_word_toNat (t : Status) :
    t.word.toNat = 256 * t.lastFault.code.toNat + 4 * t.faultSeen.toNat + 2 * t.warn.toNat + t.fatal.toNat := by
  obtain ⟨fatal, warn, seen, code⟩ := t
  cases code <;> revert fatal warn seen <;> decide

/-- The bytes of a word, most significant first, as numbers (R83). -/
theorem word_bytes_toNat (w : Word) :
    [w.extractLsb' 24 8, w.extractLsb' 16 8, w.extractLsb' 8 8, w.extractLsb' 0 8].map BitVec.toNat = bytes32 w.toNat := by
  have htop : w.toNat / 16777216 < 256 := by omega
  simpa [bytes32, BitVec.extractLsb'_toNat, Nat.shiftRight_eq_div_pow] using htop

theorem response_bytes_toNat (a : Response) :
    a.bytes.map BitVec.toNat = a.fault.code.toNat :: bytes32 a.r0.toNat ++ bytes32 a.r1.toNat := by
  rw [← word_bytes_toNat, ← word_bytes_toNat]
  rfl

/-- Settles O13: `STGET` only gives a response, and the two words it is made of are read off their fields. -/
theorem stgetReadsStatus : Obligations.StgetReadsStatus :=
  ⟨fun _ => rfl, fun a0 a1 a2 a3 => decodeRecord_packRecord 0x31#8 a0 a1 a2 a3, status_word_toNat,
    ⟨rfl, rfl, rfl, rfl, rfl, rfl, rfl, rfl⟩, response_bytes_toNat⟩

end Sys2Proof.Machine

/-! PROOFS for the family 20_memory.md. `SER`, `DES`, `BUFWR` and `BUFRD` are read off the laws of the buffer; what `DES`
needs besides is that the mandatory part of a structure fixes its size, and that a load writes one bank. -/

namespace Sys2Proof.Machine

/-! ### Records with a bank selector (R82, R85) -/

theorem word_of_banksBySelector {k : Nat} {b : Bank} (h : banksBySelector[k]? = some b) : BitVec.ofNat 32 k = b.word := by
  obtain ⟨hk, rfl⟩ := List.getElem?_eq_some_iff.1 h
  change k < 11 at hk
  interval_cases k <;> rfl

@[simp] theorem withBank_word (b : Bank) (f : Bank → Decoded) : withBank b.word f = f b := by
  rw [withBank, Bank.ofSel_word]

theorem decodeOperands_ser (a0 a1 a2 a3 : Word) :
    decodeOperands 0x05#8 a0 a1 a2 a3 = withBank a0 fun b => .ok (.ser b) := rfl

theorem decodeOperands_des (a0 a1 a2 a3 : Word) :
    decodeOperands 0x06#8 a0 a1 a2 a3 = withBank a0 fun b => .ok (.des b) := rfl

/-! ### The mandatory part of a structure fixes its size (R90, R117) -/

/-- The size of a structure is at least that of its mandatory part. -/
theorem prefixBytes_le_size (B : Banks) (b : Bank) : b.prefixBytes ≤ B.size b := by
  cases b with
  | mht | bh | uh | rdc | aci => exact Nat.le_refl _
  | nb | cb | areq | rar =>
    simp only [Bank.prefixBytes, Banks.size, NbBank.size, CbBank.size, AreqBank.size, RarBank.size]
    omega
  | mux =>
    simp only [Bank.prefixBytes, Banks.size, MuxBank.size]
    split_ifs <;> omega
  | arsp =>
    simp only [Bank.prefixBytes, Banks.size, ArspBank.size]
    split <;> omega

theorem byteAt_take (bytes : List Byte) {i n : Nat} (h : i < n) : byteAt (bytes.take n) i = byteAt bytes i := by
  simp [byteAt, List.getD_eq_getElem?_getD, h]

/-- The size a bank has after a load depends on no register it had before. -/
theorem load_size_eq (B C : Banks) (b : Bank) (bytes : List Byte) : (B.load b bytes).size b = (C.load b bytes).size b := by
  cases b <;> rfl

/-- The form bits of a multiplexing header fix its size (R157). -/
theorem decMux_size_eq (bytes : List Byte) :
    (decMux bytes).size =
      if (byteAt bytes 0).extractLsb' 6 2 = 1#2 then 2 else if (byteAt bytes 0).extractLsb' 6 2 = 2#2 then 3 else 1 := by
  have hform : (decMux bytes).macExt = (byteAt bytes 0).extractLsb' 6 2 := by
    simp only [decMux]
    split_ifs <;> rfl
  rw [MuxBank.size, hform]

/-- The first byte of an Association Response fixes its size (R201). -/
theorem decArsp_size_eq (bytes : List Byte) :
    (decArsp bytes).size =
      if (byteAt bytes 0).extractLsb' 7 1 = 0#1 then 2
      else 1 + 2 * ((byteAt bytes 0).extractLsb' 5 1).toNat + flows ((byteAt bytes 0).extractLsb' 2 3)
        + 2 * ((byteAt bytes 0).extractLsb' 1 1).toNat := by
  by_cases hreject : (byteAt bytes 0).extractLsb' 7 1 = 0#1
  · simp only [ArspBank.size, decArsp, if_pos hreject]
  · simp only [ArspBank.size, decArsp, if_neg hreject]

/-- The flags that fix the size stand in the mandatory part. -/
theorem load_size_take (B : Banks) (b : Bank) (bytes : List Byte) :
    (B.load b (bytes.take b.prefixBytes)).size b = (B.load b bytes).size b := by
  cases b with
  | mht | bh | uh | rdc | aci => rfl
  | mux =>
    change (decMux (bytes.take 1)).size = (decMux bytes).size
    rw [decMux_size_eq, decMux_size_eq, byteAt_take bytes (by decide)]
  | nb =>
    change (decNb (bytes.take 8)).size = (decNb bytes).size
    simp only [NbBank.size, decNb, byteAt_take bytes (show 0 < 8 by decide)]
  | cb =>
    change (decCb (bytes.take 4)).size = (decCb bytes).size
    simp only [CbBank.size, decCb, byteAt_take bytes (show 1 < 4 by decide)]
  | areq =>
    change (decAreq (bytes.take 4)).size = (decAreq bytes).size
    simp only [AreqBank.size, decAreq, byteAt_take bytes (show 0 < 4 by decide), byteAt_take bytes (show 1 < 4 by decide)]
  | arsp =>
    change (decArsp (bytes.take 1)).size = (decArsp bytes).size
    rw [decArsp_size_eq, decArsp_size_eq, byteAt_take bytes (by decide)]
  | rar =>
    change (decRar (bytes.take 5)).size = (decRar bytes).size
    simp [RarBank.size, decRar, byteAt_take bytes (show 0 < 5 by decide)]

/-- The size found in the mandatory part is that of the bank loaded from any bytes that begin with it. -/
theorem sizeFromPrefix_take (B : Banks) (b : Bank) (bytes : List Byte) :
    sizeFromPrefix b (bytes.take b.prefixBytes) = (B.load b bytes).size b := by
  rw [sizeFromPrefix, load_size_take, load_size_eq]

/-- The bank `DES` loads has the size that `DES` found (R117, R131). -/
theorem load_memRead_size (s : State) (b : Bank) {a n : Nat}
    (hn : sizeFromPrefix b (memRead s a b.prefixBytes) = n) (B : Banks) : (B.load b (memRead s a n)).size b = n := by
  have hle : b.prefixBytes ≤ n := hn ▸ prefixBytes_le_size _ b
  rw [← sizeFromPrefix_take, memRead_take s a n _ hle, hn]

/-- A load writes no register of another bank (R117): a register of the same bank is excluded, and any other is read from
a bank that the load keeps. -/
theorem load_read_of_ne (B : Banks) {b : Bank} (bytes : List Byte) {r : Reg} (h : r.bank ≠ b) :
    (B.load b bytes).read r = B.read r := by
  cases r <;> cases b
  all_goals first | exact absurd rfl h | rfl

/-! ### The buffer commands -/

theorem exec_ser (b : Bank) (s : State) : exec (.ser b) s = command (storeToBuffer b) s := rfl
theorem exec_des (b : Bank) (s : State) : exec (.des b) s = command (loadFromBuffer b) s := rfl
theorem exec_bufwr (addr value : Word) (s : State) : exec (.bufwr addr value) s = execBufwr addr value s := rfl
theorem exec_bufrd (addr : Word) (s : State) : exec (.bufrd addr) s = execBufrd addr s := rfl

section
variable {s : State}

theorem exec_ser_fits (hrun : s.Running) {b : Bank} (hmux : b = .mux → s.banks.mux.fits = true)
    (hfit : s.cur.toNat + s.banks.size b ≤ Config.bufSize) :
    exec (.ser b) s = .next
      ((setCur { s with buf := memWrite s.buf s.cur.toNat (s.banks.enc b) } (s.cur.toNat + s.banks.size b)).answered .ok
        (BitVec.ofNat 32 (s.banks.size b)) 0#32) := by
  rw [exec_ser]
  exact command_ret hrun (storeToBuffer_fits b s hmux hfit)

theorem exec_des_fits (hrun : s.Running) {b : Bank} {n : Nat}
    (hn : sizeFromPrefix b (memRead s s.cur.toNat b.prefixBytes) = n)
    (hprefix : s.cur.toNat + b.prefixBytes ≤ Config.bufSize) (hfit : s.cur.toNat + n ≤ Config.bufSize) :
    exec (.des b) s = .next
      ((setCur { s with banks := s.banks.load b (memRead s s.cur.toNat n) } (s.cur.toNat + n)).answered .ok
        (BitVec.ofNat 32 n) 0#32) := by
  rw [exec_des]
  refine command_ret hrun ?_
  rw [loadFromBuffer_go b s n hprefix hn, finishLoad_fits _ _ _ hfit]

theorem exec_des_overrun (hrun : s.Running) {b : Bank} {n : Nat}
    (hn : sizeFromPrefix b (memRead s s.cur.toNat b.prefixBytes) = n)
    (hover : Config.bufSize < s.cur.toNat + b.prefixBytes ∨ Config.bufSize < s.cur.toNat + n) :
    exec (.des b) s = .next (s.answered .bufferOverrun 0#32 0#32) := by
  rw [exec_des]
  refine command_raised hrun ?_
  by_cases hprefix : Config.bufSize < s.cur.toNat + b.prefixBytes
  · exact loadFromBuffer_prefix b s hprefix
  · have hstruct : Config.bufSize < s.cur.toNat + n := hover.resolve_left hprefix
    rw [loadFromBuffer_go b s n (Nat.le_of_not_lt hprefix) hn, finishLoad_overrun _ _ _ hstruct]

theorem exec_bufwr_ok (hrun : s.Running) {addr value : Word} (haddr : addr.toNat < Config.bufSize)
    (hvalue : value.toNat ≤ 255) :
    exec (.bufwr addr value) s = .next
      (({ s with buf := memWrite s.buf addr.toNat [value.setWidth 8] } : State).answered .ok 0#32 0#32) := by
  rw [exec_bufwr, execBufwr]
  exact command_ret hrun (by rw [if_neg (Nat.not_le.2 haddr), if_neg (Nat.not_lt.2 hvalue)])

theorem exec_bufwr_overrun (hrun : s.Running) {addr : Word} (haddr : Config.bufSize ≤ addr.toNat) (value : Word) :
    exec (.bufwr addr value) s = .next (s.answered .bufferOverrun 0#32 0#32) := by
  rw [exec_bufwr, execBufwr]
  exact command_raised hrun (if_pos haddr)

theorem exec_bufwr_invalid (hrun : s.Running) {addr value : Word} (haddr : addr.toNat < Config.bufSize)
    (hvalue : 255 < value.toNat) :
    exec (.bufwr addr value) s = .next (s.answered .invalidArgument 0#32 0#32) := by
  rw [exec_bufwr, execBufwr]
  exact command_raised hrun (by rw [if_neg (Nat.not_le.2 haddr), if_pos hvalue])

theorem exec_bufrd_ok (hrun : s.Running) {addr : Word} (haddr : addr.toNat < Config.bufSize) :
    exec (.bufrd addr) s = .next (s.answered .ok ((bufByte s addr.toNat).setWidth 32) 0#32) := by
  rw [exec_bufrd, execBufrd]
  exact command_ret hrun (if_neg (Nat.not_le.2 haddr))

theorem exec_bufrd_overrun (hrun : s.Running) {addr : Word} (haddr : Config.bufSize ≤ addr.toNat) :
    exec (.bufrd addr) s = .next (s.answered .bufferOverrun 0#32 0#32) := by
  rw [exec_bufrd, execBufrd]
  exact command_raised hrun (if_pos haddr)

end

/-- A byte of the buffer after a store of one byte (R63). -/
theorem bufByte_memWrite_singleton {s t : State} {a : Nat} {v : Byte} (hb : t.buf = memWrite s.buf a [v])
    (he : t.epoch = s.epoch) (x : Nat) : bufByte t x = if x = a then v else bufByte s x := by
  rw [bufByte_memWrite s t a [v] x hb he, List.length_singleton]
  by_cases hx : x = a
  · subst hx
    simp
  · rw [if_neg hx, if_neg (by omega)]

theorem runRecord_ok {r : Record} {i : Instr} (h : decodeRecord r = .ok i) (s : State) : runRecord r s = exec i s := by
  rw [runRecord, h]

/-! ### The obligations -/

/-- Settles O4: a step runs the record on the state without it, and a legal record runs its instruction. -/
theorem stepRunsDecodedRecord : Obligations.StepRunsDecodedRecord := by
  intro s r rest i hport hdecode
  exact (step_command hport).trans (runRecord_ok hdecode _)

/-- Settles O19: what is stored has the structure's length (`banks_enc_length`), so the law of a store says every byte. -/
theorem serWritesStructure : Obligations.SerWritesStructure := by
  refine ⟨fun k b a1 a2 a3 hk => ?_, fun s b hrun => ⟨fun hmux hfit => ?_, ?_, fun hmux hover => ?_⟩⟩
  · rw [decodeRecord_packRecord, decodeOperands_ser, word_of_banksBySelector hk, withBank_word]
  · refine ⟨_, exec_ser_fits hrun hmux hfit, ⟨_, rfl⟩, fun a => ?_⟩
    rw [← banks_enc_length]
    exact bufByte_memWrite s _ _ _ a rfl rfl
  · rintro ⟨rfl, hmisfit⟩
    exact command_raised hrun (storeToBuffer_misfit s hmisfit)
  · exact command_raised hrun (storeToBuffer_overrun b s hmux hover)

/-- Settles O20: the size of the loaded bank is the one found, since the mandatory part fixes it (`load_memRead_size`). -/
theorem desLoadsOneBank : Obligations.DesLoadsOneBank := by
  refine ⟨fun k b a1 a2 a3 hk => ?_, fun s b n hrun hn => ⟨fun hprefix hfit => ?_, exec_des_overrun hrun hn⟩⟩
  · rw [decodeRecord_packRecord, decodeOperands_des, word_of_banksBySelector hk, withBank_word]
  · exact ⟨_, exec_des_fits hrun hn hprefix hfit, rfl, load_memRead_size s b hn _, fun r => load_read_of_ne _ _⟩

/-- Settles O24: the checks in their order, and the law of a store of one byte. -/
theorem bufwrStoresOneByte : Obligations.BufwrStoresOneByte := by
  refine ⟨fun addr value a2 a3 => decodeRecord_packRecord 0x0A#8 addr value a2 a3, fun s addr value hrun =>
    ⟨fun haddr hvalue => ?_, fun haddr => exec_bufwr_overrun hrun haddr value, exec_bufwr_invalid hrun⟩⟩
  refine ⟨_, exec_bufwr_ok hrun haddr hvalue, ⟨_, rfl⟩, fun a => ?_⟩
  rw [BitVec.ofNat_toNat]
  exact bufByte_memWrite_singleton (by rfl) (by rfl) a

/-- Settles O25: a byte zero-extended is the word of its number. -/
theorem bufrdAnswersByte : Obligations.BufrdAnswersByte := by
  refine ⟨fun addr a1 a2 a3 => decodeRecord_packRecord 0x0B#8 addr a1 a2 a3, fun s addr hrun =>
    ⟨fun haddr => ?_, exec_bufrd_overrun hrun⟩⟩
  rw [BitVec.ofNat_toNat]
  exact exec_bufrd_ok hrun haddr

end Sys2Proof.Machine

/-! PROOFS for the family 30_encoding.md. A command's record is read back operand by operand. A structure's bytes are read
back piece by piece: `p <+: bytes.drop i` says that piece `p` stands at index `i`, so the pieces of `enc_B` stand at the
running index of `dec_B`, whatever follows them. The rest are the commands of the family, each read off its operand forms
and the laws of the shared operations. -/

namespace Sys2Proof.Machine

/-! ### Records: the bytes of a record, and the operands of a command (R81, R82) -/

theorem highWord_append_lowWord (v : DWord) : highWord v ++ lowWord v = v :=
  BitVec.extractLsb'_append_extractLsb'_eq_extractLsb' (x := v) (by rfl) |>.trans (by simp)

/-- The 17 bytes of a record are read back as its opcode and its operands. -/
theorem recordOfBytes_recordBytes (r : Record) :
    recordOfBytes (recordBytes r) = some (packRecord (r.extractLsb' 128 8)
      (r.extractLsb' 96 32, r.extractLsb' 64 32, r.extractLsb' 32 32, r.extractLsb' 0 32)) := by
  simp only [recordBytes, put32, List.cons_append, List.nil_append, recordOfBytes, cat_word32]
  rfl

/-- The decoder of byte strings on the bytes of a record is the decoder of records. -/
theorem decode_recordBytes (r : Record) : decode (recordBytes r) = decodeRecord r := by
  rw [decode, recordOfBytes_recordBytes]
  exact decodeRecord_packRecord ..

/-- The selectors of a register decode to it (R85 to R87). -/
theorem withReg_words (r : Reg) (f : Reg → Decoded) : withReg r.bankWord r.fieldWord r.idxWord f = f r := by
  have hbank : r.bankWord = r.bank.word := rfl
  rw [withReg, hbank, withBank_word, if_neg (Nat.not_le.2 r.fieldWord_lt), Reg.ofSel_words]

/-! A `sel` operand decodes to what it stands for (R89) -/

theorem withSel_ofSel_bandSel (x : BandSel) (f : BandSel → Decoded) : withSel (BandSel.ofSel x.sel.toNat) f = f x := by
  rw [BandSel.ofSel_sel, withSel]

theorem withSel_ofSel_timeSel (x : TimeSel) (f : TimeSel → Decoded) : withSel (TimeSel.ofSel x.sel.toNat) f = f x := by
  rw [TimeSel.ofSel_sel, withSel]

theorem decodeOperands_operands {i : Instr} {op : Byte} (hwf : i.wellFormed = true) (hop : i.opcode = some op) :
    decodeOperands op i.operands.1 i.operands.2.1 i.operands.2.2.1 i.operands.2.2.2 = .ok i := by
  cases i with
  | nop | seek | tell | bufwr | bufrd | chinit | chvalid | cfreq | chfreq | chid | bin | rssi | stclr | stget =>
    cases hop
    rfl
  | rst b | size b | ser b | des b =>
    cases hop
    exact withBank_word b _
  | disp b =>
    cases hop
    exact (withBank_word b _).trans (if_pos (of_decide_eq_true hwf))
  | set r | get r =>
    cases hop
    exact withReg_words r _
  | bandparm band x =>
    cases hop
    exact withSel_ofSel_bandSel x _
  | tloc band x t =>
    cases hop
    exact (withSel_ofSel_timeSel x _).trans
      (congrArg (fun v => Decoded.ok (.tloc band x v)) (highWord_append_lowWord t))
  | pwadd band n p =>
    cases hop
    exact congrArg (fun v => Decoded.ok (.pwadd band n v)) (highWord_append_lowWord p)
  | pwsub band n p =>
    cases hop
    exact congrArg (fun v => Decoded.ok (.pwsub band n v)) (highWord_append_lowWord p)
  | w2dbm p =>
    cases hop
    exact congrArg (fun v => Decoded.ok (.w2dbm v)) (highWord_append_lowWord p)
  | ssget band n slot subslot x =>
    cases hop
    exact (decodeRecord_packRecord ..).symm.trans (decode_ssget ..)
  | ssset band n slot subslot code rssi =>
    cases hop
    exact (decodeRecord_packRecord ..).symm.trans (decode_ssset ..)
  | mht | bh | uh | muxForm0 | muxForm1 | muxForm2 | muxForm3 | nb | cb | areq | arspReject | arspAccept | rar | rdc
  | aci => cases hop

/-- The record of a well-formed command decodes to it. -/
theorem decodeRecord_encodeRecord {i : Instr} {r : Record} (hwf : i.wellFormed = true) (h : encodeRecord i = some r) :
    decodeRecord r = .ok i := by
  obtain ⟨op, hop, rfl⟩ := Option.map_eq_some_iff.1 h
  exact (decodeRecord_packRecord ..).trans (decodeOperands_operands hwf hop)

/-- What is no wire row is a command, and has a record. -/
theorem encodeRecord_of_wireBank_none {i : Instr} (h : i.wireBank = none) : ∃ r, encodeRecord i = some r := by
  cases i <;> first | exact ⟨_, rfl⟩ | cases h

theorem encode_of_encodeRecord {i : Instr} {r : Record} (h : encodeRecord i = some r) : encode i = recordBytes r := by
  rw [encode, h]

/-- Settles O56: the bytes of a command are those of its record, which decodes operand by operand. -/
theorem commandDecodesAsEncoded : Obligations.CommandDecodesAsEncoded := by
  intro i hwf hcommand
  obtain ⟨r, hr⟩ := encodeRecord_of_wireBank_none hcommand
  rw [encode_of_encodeRecord hr, decode_recordBytes]
  exact ⟨Laws.recordBytes_length r, decodeRecord_encodeRecord hwf hr⟩

/-! ### What stands in a byte list, and where

`p <+: bytes.drop i` says that the bytes from index `i` on begin with `p`; what follows `p` is left open. -/

/-- Of two pieces that stand one after the other, each stands at its own index. -/
theorem append_prefix_drop {p q bytes : List Byte} {i j : Nat} (h : p ++ q <+: bytes.drop i) (hj : i + p.length = j) :
    p <+: bytes.drop i ∧ q <+: bytes.drop j := by
  obtain ⟨rest, hrest⟩ := h
  rw [List.append_assoc] at hrest
  exact ⟨⟨q ++ rest, hrest⟩, ⟨rest, by rw [← hj, ← List.drop_drop, ← hrest, List.drop_left]⟩⟩

theorem byteAt_of_prefix {p bytes : List Byte} {i k : Nat} {v : Byte} (h : p <+: bytes.drop i) (hk : p[k]? = some v) :
    byteAt bytes (i + k) = v := by
  obtain ⟨hlt, rfl⟩ := List.getElem?_eq_some_iff.1 hk
  obtain ⟨rest, hrest⟩ := h
  rw [byteAt, List.getD_eq_getElem?_getD, ← List.getElem?_drop, ← hrest, List.getElem?_append_left hlt, hk,
    Option.getD_some]

/-! The readers of R132 find what their writers wrote -/

section
variable {bytes : List Byte} {i : Nat}

theorem get13_of_prefix {c : BitVec 13} (h : put13 c <+: bytes.drop i) : get13 bytes i = c := by
  have h0 : byteAt bytes i = _ := byteAt_of_prefix (k := 0) h rfl
  rw [get13, h0, byteAt_of_prefix (k := 1) h rfl, byte_chan13, cat_chan13]

theorem get24_of_prefix {v : BitVec 24} (h : put24 v <+: bytes.drop i) : get24 bytes i = v := by
  have h0 : byteAt bytes i = _ := byteAt_of_prefix (k := 0) h rfl
  rw [get24, h0, byteAt_of_prefix (k := 1) h rfl, byteAt_of_prefix (k := 2) h rfl, cat_word24]

theorem get32_of_prefix {v : Word} (h : put32 v <+: bytes.drop i) : get32 bytes i = v := by
  have h0 : byteAt bytes i = _ := byteAt_of_prefix (k := 0) h rfl
  rw [get32, h0, byteAt_of_prefix (k := 1) h rfl, byteAt_of_prefix (k := 2) h rfl, byteAt_of_prefix (k := 3) h rfl,
    cat_word32]

/-! Optional pieces: what stands there matters only where the gate is open -/

theorem gated_congr {w : Nat} {isOpen : Bool} {v v' : BitVec w} (h : isOpen = true → v = v') :
    gated isOpen v = gated isOpen v' := by
  cases isOpen with
  | false => rfl
  | true => exact h rfl

theorem prefix_of_optBytes {isOpen : Bool} {p l : List Byte} (h : optBytes isOpen p <+: l) (hopen : isOpen = true) :
    p <+: l := by
  subst hopen
  exact h

theorem gated_byteAt_of_prefix {isOpen : Bool} {v : Byte} (h : optBytes isOpen [v] <+: bytes.drop i) :
    gated isOpen (byteAt bytes i) = gated isOpen v :=
  gated_congr fun hopen => byteAt_of_prefix (k := 0) (prefix_of_optBytes h hopen) rfl

theorem gated_low4_of_prefix {isOpen : Bool} {v : BitVec 4} (h : optBytes isOpen [0#4 ++ v] <+: bytes.drop i) :
    gated isOpen ((byteAt bytes i).extractLsb' 0 4) = gated isOpen v := by
  refine gated_congr fun hopen => ?_
  have h0 : byteAt bytes i = _ := byteAt_of_prefix (k := 0) (prefix_of_optBytes h hopen) rfl
  rw [h0, byte_low4]

theorem gated_get13_of_prefix {isOpen : Bool} {c : BitVec 13} (h : optBytes isOpen (put13 c) <+: bytes.drop i) :
    gated isOpen (get13 bytes i) = gated isOpen c :=
  gated_congr fun hopen => get13_of_prefix (prefix_of_optBytes h hopen)

theorem gated_get32_of_prefix {isOpen : Bool} {v : Word} (h : optBytes isOpen (put32 v) <+: bytes.drop i) :
    gated isOpen (get32 bytes i) = gated isOpen v :=
  gated_congr fun hopen => get32_of_prefix (prefix_of_optBytes h hopen)

/-! Array fields: the elements that are carried -/

/-- Channel number `k` of channel numbers written one after the other. -/
theorem get13_of_flatten_prefix {l : List (BitVec 13)} {k : Nat} {c : BitVec 13}
    (h : (l.map put13).flatten <+: bytes.drop i) (hk : l[k]? = some c) : get13 bytes (i + 2 * k) = c := by
  induction l generalizing i k with
  | nil => cases hk
  | cons d l ih =>
    rw [List.map_cons, List.flatten_cons] at h
    obtain ⟨hd, hl⟩ := append_prefix_drop h rfl
    cases k with
    | zero =>
      cases hk
      exact get13_of_prefix hd
    | succ k =>
      have hnext := ih hl hk
      rwa [put13_length, show i + 2 + 2 * k = i + 2 * (k + 1) by omega] at hnext

theorem keep_get13_of_prefix {t : Triple (BitVec 13)} {n : Nat}
    (h : ((t.toList.take n).map put13).flatten <+: bytes.drop i) :
    Triple.keep ⟨get13 bytes i, get13 bytes (i + 2), get13 bytes (i + 4)⟩ n = t.keep n := by
  have helem {k : Nat} {c : BitVec 13} (hc : t.toList[k]? = some c) (hk : decide (k < n) = true) :
      get13 bytes (i + 2 * k) = c :=
    get13_of_flatten_prefix h (by rw [List.getElem?_take_of_lt (of_decide_eq_true hk), hc])
  simp only [Triple.keep, Triple.mk.injEq]
  exact ⟨gated_congr (helem (k := 0) rfl), gated_congr (helem (k := 1) rfl), gated_congr (helem (k := 2) rfl)⟩

theorem getFlows_of_prefix {t : Six (BitVec 6)} {n : Nat} (h : (t.toList.take n).map putFlow <+: bytes.drop i) :
    getFlows bytes i n = t.keep n := by
  have helem {k : Nat} {f : BitVec 6} (hf : t.toList[k]? = some f) (hk : decide (k < n) = true) :
      (byteAt bytes (i + k)).extractLsb' 0 6 = f := by
    have hbyte : byteAt bytes (i + k) = putFlow f := by
      refine byteAt_of_prefix h ?_
      rw [List.getElem?_map, List.getElem?_take_of_lt (of_decide_eq_true hk), hf, Option.map_some]
    rw [hbyte, putFlow, byte_flow]
  simp only [getFlows, Six.keep, Six.mk.injEq]
  exact ⟨gated_congr (helem (k := 0) rfl), gated_congr (helem (k := 1) rfl), gated_congr (helem (k := 2) rfl),
    gated_congr (helem (k := 3) rfl), gated_congr (helem (k := 4) rfl), gated_congr (helem (k := 5) rfl)⟩

end

/-! ### `dec_B` after `enc_B`: bytes that begin with a structure are read as what the structure carries (R120, R130) -/

section
variable {bytes : List Byte}

theorem decMht_of_prefix {b : MhtBank} (h : encMht b <+: bytes) : decMht bytes = b := by
  have h0 : byteAt bytes 0 = _ := byteAt_of_prefix (i := 0) (k := 0) h rfl
  simp only [decMht, h0, byte_mht]

theorem decBh_of_prefix {b : BhBank} (h : encBh b <+: bytes) : decBh bytes = b := by
  obtain ⟨hnet, haddr⟩ := append_prefix_drop (i := 0) (j := 3) h rfl
  simp only [decBh, get24_of_prefix hnet, get32_of_prefix haddr]

theorem decUh_of_prefix {b : UhBank} (h : encUh b <+: bytes) : decUh bytes = b := by
  obtain ⟨h, htransmitter⟩ := append_prefix_drop (i := 0) (j := 6) h rfl
  obtain ⟨h, hreceiver⟩ := append_prefix_drop (j := 2) h rfl
  have h0 : byteAt bytes 0 = _ := byteAt_of_prefix (k := 0) h rfl
  have h1 : byteAt bytes 1 = _ := byteAt_of_prefix (k := 1) h rfl
  simp only [decUh, h0, h1, byte_uh0, cat_seq12, get32_of_prefix hreceiver, get32_of_prefix htransmitter]

theorem decNb_of_prefix {b : NbBank} (h : encNb b <+: bytes) : decNb bytes = b.visible := by
  obtain ⟨h, hextra⟩ := append_prefix_drop (i := 0) (j := 8 + b.txPowerFlag.toNat + 2 * b.currentFlag.toNat) h
    (by simp [optBytes_length]; omega)
  obtain ⟨h, hcurrent⟩ := append_prefix_drop (j := 8 + b.txPowerFlag.toNat) h (by simp [optBytes_length]; omega)
  obtain ⟨h, hpower⟩ := append_prefix_drop (j := 8) h rfl
  obtain ⟨h, htime⟩ := append_prefix_drop (j := 4) h rfl
  obtain ⟨h, hnext⟩ := append_prefix_drop (j := 2) h rfl
  have h0 : byteAt bytes 0 = _ := byteAt_of_prefix (k := 0) h rfl
  have h1 : byteAt bytes 1 = _ := byteAt_of_prefix (k := 1) h rfl
  simp only [decNb, h0, h1, byte_nb0, byte_nibbles, get13_of_prefix hnext, get32_of_prefix htime,
    gated_low4_of_prefix hpower, gated_get13_of_prefix hcurrent, keep_get13_of_prefix hextra, NbBank.visible]

theorem decCb_of_prefix {b : CbBank} (h : encCb b <+: bytes) : decCb bytes = b.visible := by
  obtain ⟨h, htime⟩ := append_prefix_drop (i := 0)
    (j := 4 + b.txPowerFlag.toNat + b.foFlag.toNat + 2 * b.nextChannelFlag.toNat) h
    (by simp [optBytes_length]; omega)
  obtain ⟨h, hnext⟩ := append_prefix_drop (j := 4 + b.txPowerFlag.toNat + b.foFlag.toNat) h
    (by simp [optBytes_length]; omega)
  obtain ⟨h, hoffset⟩ := append_prefix_drop (j := 4 + b.txPowerFlag.toNat) h (by simp [optBytes_length]; omega)
  obtain ⟨h, hpower⟩ := append_prefix_drop (j := 4) h rfl
  have h0 : byteAt bytes 0 = _ := byteAt_of_prefix (k := 0) h rfl
  have h1 : byteAt bytes 1 = _ := byteAt_of_prefix (k := 1) h rfl
  have h2 : byteAt bytes 2 = _ := byteAt_of_prefix (k := 2) h rfl
  have h3 : byteAt bytes 3 = _ := byteAt_of_prefix (k := 3) h rfl
  simp only [decCb, h0, h1, h2, h3, byte_cb1, byte_nibbles, byte_cb3, gated_low4_of_prefix hpower,
    gated_byteAt_of_prefix hoffset, gated_get13_of_prefix hnext, gated_get32_of_prefix htime, CbBank.visible]

/-- The part of an Association Request that `ftMode` opens (R190). -/
theorem areqOptional_of_prefix {nb cb : BitVec 4} {next current : BitVec 13} {time : Word} {isOpen : Bool} {i : Nat}
    (h : [nb ++ cb] ++ put13 next ++ put32 time ++ optBytes isOpen (put13 current) <+: bytes.drop i) :
    byteAt bytes i = nb ++ cb ∧ get13 bytes (i + 1) = next ∧ get32 bytes (i + 3) = time
    ∧ (isOpen = true → get13 bytes (i + 7) = current) := by
  obtain ⟨h, hcurrent⟩ := append_prefix_drop (j := i + 7) h rfl
  obtain ⟨h, htime⟩ := append_prefix_drop (j := i + 3) h rfl
  obtain ⟨h, hnext⟩ := append_prefix_drop (j := i + 1) h rfl
  exact ⟨byteAt_of_prefix (k := 0) h rfl, get13_of_prefix hnext, get32_of_prefix htime,
    fun hopen => get13_of_prefix (prefix_of_optBytes hcurrent hopen)⟩

@[simp] theorem six_toList_length {α : Type} (t : Six α) : t.toList.length = 6 := rfl

theorem decAreq_of_prefix {b : AreqBank} (h : encAreq b <+: bytes) : decAreq bytes = b.visible := by
  have hcount := flows_le b.numberOfFlows
  obtain ⟨h, hopt⟩ := append_prefix_drop (i := 0) (j := 4 + flows b.numberOfFlows) h (by simp; omega)
  obtain ⟨h, hflows⟩ := append_prefix_drop (j := 4) h rfl
  have h0 : byteAt bytes 0 = _ := byteAt_of_prefix (k := 0) h rfl
  have h1 : byteAt bytes 1 = _ := byteAt_of_prefix (k := 1) h rfl
  have h2 : byteAt bytes 2 = _ := byteAt_of_prefix (k := 2) h rfl
  have h3 : byteAt bytes 3 = _ := byteAt_of_prefix (k := 3) h rfl
  have hft (hopen : decide (b.ftMode = 1#1) = true) := areqOptional_of_prefix (prefix_of_optBytes hopt hopen)
  simp only [decAreq, h0, h1, h2, h3, byte_areq0, byte_top1, byte_harq, getFlows_of_prefix hflows, AreqBank.visible,
    AreqBank.mk.injEq, true_and]
  refine ⟨gated_congr fun hopen => ?_, gated_congr fun hopen => ?_, gated_congr fun hopen => ?_,
    gated_congr fun hopen => ?_, gated_congr fun hopen => ?_⟩
  · obtain ⟨hperiods, -⟩ := hft hopen
    rw [hperiods, (byte_nibbles _ _).1]
  · obtain ⟨hperiods, -⟩ := hft hopen
    rw [hperiods, (byte_nibbles _ _).2]
  · obtain ⟨-, hnext, -⟩ := hft hopen
    exact hnext
  · obtain ⟨-, -, htime, -⟩ := hft hopen
    exact htime
  · obtain ⟨hmode, hflag⟩ := of_decide_eq_true hopen
    obtain ⟨-, -, -, hcurrent⟩ := hft (decide_eq_true hmode)
    exact hcurrent (decide_eq_true hflag)

/-- The two bytes that `harqMod` opens (R200). -/
theorem gated_harq_of_prefix {isOpen : Bool} {rx tx : BitVec 3} {reRx reTx : BitVec 5} {i : Nat}
    (h : optBytes isOpen [rx ++ reRx, tx ++ reTx] <+: bytes.drop i) :
    gated isOpen ((byteAt bytes i).extractLsb' 5 3) = gated isOpen rx
    ∧ gated isOpen ((byteAt bytes i).extractLsb' 0 5) = gated isOpen reRx
    ∧ gated isOpen ((byteAt bytes (i + 1)).extractLsb' 5 3) = gated isOpen tx
    ∧ gated isOpen ((byteAt bytes (i + 1)).extractLsb' 0 5) = gated isOpen reTx := by
  cases isOpen with
  | false => exact ⟨rfl, rfl, rfl, rfl⟩
  | true =>
    have h0 : byteAt bytes i = _ := byteAt_of_prefix (k := 0) h rfl
    rw [h0, byteAt_of_prefix (k := 1) h rfl]
    obtain ⟨hrx, hreRx⟩ := byte_harq rx reRx
    obtain ⟨htx, hreTx⟩ := byte_harq tx reTx
    exact ⟨hrx, hreRx, htx, hreTx⟩

/-- The two bytes that `group` opens (R200). -/
theorem gated_group_of_prefix {isOpen : Bool} {groupId resourceTag : BitVec 7} {i : Nat}
    (h : optBytes isOpen [0#1 ++ groupId, 0#1 ++ resourceTag] <+: bytes.drop i) :
    gated isOpen ((byteAt bytes i).extractLsb' 0 7) = gated isOpen groupId
    ∧ gated isOpen ((byteAt bytes (i + 1)).extractLsb' 0 7) = gated isOpen resourceTag := by
  cases isOpen with
  | false => exact ⟨rfl, rfl⟩
  | true =>
    have h0 : byteAt bytes i = _ := byteAt_of_prefix (k := 0) h rfl
    rw [h0, byteAt_of_prefix (k := 1) h rfl]
    exact ⟨byte_low7 groupId, byte_low7 resourceTag⟩

theorem decArsp_of_prefix {b : ArspBank} (h : encArsp b <+: bytes) : decArsp bytes = b.visible := by
  obtain ⟨h, hrest⟩ := append_prefix_drop (i := 0) (j := 1) h rfl
  have h0 : byteAt bytes 0 = _ := byteAt_of_prefix (k := 0) h rfl
  rcases flag_cases b.ackNack with hack | hack
  · rw [if_pos hack] at hrest
    have h1 : byteAt bytes 1 = _ := byteAt_of_prefix (k := 0) hrest rfl
    simp only [decArsp, h0, byte_arsp0, if_pos hack, h1, byte_nibbles, ArspBank.visible]
    simp [hack, gated, Six.keep]
  · have haccept : ¬ b.ackNack = 0#1 := by rw [hack]; decide
    rw [if_neg haccept] at hrest
    have hcount := flows_le b.numberOfFlows
    obtain ⟨h, hgroup⟩ := append_prefix_drop (j := 1 + 2 * b.harqMod.toNat + flows b.numberOfFlows) hrest
      (by simp [optBytes_length]; omega)
    obtain ⟨hharq, hflows⟩ := append_prefix_drop (j := 1 + 2 * b.harqMod.toNat) h (by simp [optBytes_length]; omega)
    obtain ⟨hrx, hreRx, htx, hreTx⟩ := gated_harq_of_prefix hharq
    obtain ⟨hgroupId, hresourceTag⟩ := gated_group_of_prefix hgroup
    simp only [decArsp, h0, byte_arsp0, if_neg haccept, hrx, hreRx, htx, hreTx, getFlows_of_prefix hflows, hgroupId,
      hresourceTag, ArspBank.visible]
    simp [hack, gated]

theorem decRar_of_prefix {b : RarBank} (h : encRar b <+: bytes) : decRar bytes = b.visible := by
  have hrepeat : 5 + (optBytes (b.repeatMode ≠ 0#2) [b.repetition, b.validity]).length =
      if b.repeatMode ≠ 0#2 then 7 else 5 := by
    by_cases hmode : b.repeatMode = 0#2 <;> simp [optBytes, hmode]
  obtain ⟨h, hchannel2⟩ := append_prefix_drop (i := 0)
    (j := (if b.repeatMode ≠ 0#2 then 7 else 5) + b.sfnFlag.toNat + 2 * b.channelFlag.toNat) h (by
      rw [← hrepeat]
      simp only [List.length_append, List.length_cons, List.length_nil, optBytes_length, put13_length]
      omega)
  obtain ⟨h, hchannel⟩ := append_prefix_drop
    (j := (if b.repeatMode ≠ 0#2 then 7 else 5) + b.sfnFlag.toNat) h (by
      rw [← hrepeat]
      simp only [List.length_append, List.length_cons, List.length_nil, optBytes_length]
      omega)
  obtain ⟨h, hsfn⟩ := append_prefix_drop (j := if b.repeatMode ≠ 0#2 then 7 else 5) h (by
      rw [← hrepeat]
      simp only [List.length_append, List.length_cons, List.length_nil]
      omega)
  obtain ⟨h, hrepetition⟩ := append_prefix_drop (j := 5) h rfl
  have h0 : byteAt bytes 0 = _ := byteAt_of_prefix (k := 0) h rfl
  have h1 : byteAt bytes 1 = _ := byteAt_of_prefix (k := 1) h rfl
  have h2 : byteAt bytes 2 = _ := byteAt_of_prefix (k := 2) h rfl
  have h3 : byteAt bytes 3 = _ := byteAt_of_prefix (k := 3) h rfl
  have h4 : byteAt bytes 4 = _ := byteAt_of_prefix (k := 4) h rfl
  have h5 (hopen : decide (b.repeatMode ≠ 0#2) = true) : byteAt bytes 5 = b.repetition :=
    byteAt_of_prefix (k := 0) (prefix_of_optBytes hrepetition hopen) rfl
  have h6 (hopen : decide (b.repeatMode ≠ 0#2) = true) : byteAt bytes 6 = b.validity :=
    byteAt_of_prefix (k := 1) (prefix_of_optBytes hrepetition hopen) rfl
  simp only [decRar, h0, h1, h2, h3, h4, byte_rar0, byte_oneSeven, byte_rar3, gated_congr h5, gated_congr h6,
    gated_byteAt_of_prefix hsfn, gated_get13_of_prefix hchannel, gated_get13_of_prefix hchannel2, RarBank.visible]

theorem decRdc_of_prefix {b : RdcBank} (h : encRdc b <+: bytes) : decRdc bytes = b := by
  have h0 : byteAt bytes 0 = _ := byteAt_of_prefix (i := 0) (k := 0) h rfl
  have h1 : byteAt bytes 1 = _ := byteAt_of_prefix (i := 0) (k := 1) h rfl
  have h2 : byteAt bytes 2 = _ := byteAt_of_prefix (i := 0) (k := 2) h rfl
  have h3 : byteAt bytes 3 = _ := byteAt_of_prefix (i := 0) (k := 3) h rfl
  have h4 : byteAt bytes 4 = _ := byteAt_of_prefix (i := 0) (k := 4) h rfl
  have h5 : byteAt bytes 5 = _ := byteAt_of_prefix (i := 0) (k := 5) h rfl
  have h6 : byteAt bytes 6 = _ := byteAt_of_prefix (i := 0) (k := 6) h rfl
  simp only [decRdc, h0, h1, h2, h3, h4, h5, h6, byte_harq, byte_rdc1, byte_rdc2, byte_rdc3, byte_nibbles, byte_rdc5]

theorem decAci_of_prefix {b : AciBank} (h : encAci b <+: bytes) : decAci bytes = b := by
  have h0 : byteAt bytes 0 = _ := byteAt_of_prefix (i := 0) (k := 0) h rfl
  simp only [decAci, h0, byte_aci]

/-- The four forms of a multiplexing header (R155). -/
theorem muxForm_cases (form : BitVec 2) : form = 0#2 ∨ form = 1#2 ∨ form = 2#2 ∨ form = 3#2 := by
  revert form
  decide

/-- A multiplexing header whose length and type fit its form (R156). -/
theorem decMux_of_prefix {b : MuxBank} (hfits : b.fits = true) (h : encMux b <+: bytes) : decMux bytes = b.visible := by
  obtain ⟨form, t, l⟩ := b
  rcases muxForm_cases form with rfl | rfl | rfl | rfl
  · have h0 : byteAt bytes 0 = 0#2 ++ t := byteAt_of_prefix (i := 0) (k := 0) h rfl
    simp [decMux, h0, MuxBank.visible, gated]
  · have h0 : byteAt bytes 0 = 1#2 ++ t := byteAt_of_prefix (i := 0) (k := 0) h rfl
    have h1 : byteAt bytes 1 = l.extractLsb' 0 8 := byteAt_of_prefix (i := 0) (k := 1) h rfl
    have hlen : (l.extractLsb' 0 8).setWidth 16 = l := by
      have hl : l.toNat ≤ 255 := of_decide_eq_true hfits
      apply BitVec.eq_of_toNat_eq
      simp
      omega
    simp [decMux, h0, h1, MuxBank.visible, gated, hlen]
  · have h0 : byteAt bytes 0 = 2#2 ++ t := byteAt_of_prefix (i := 0) (k := 0) h rfl
    have h1 : byteAt bytes 1 = l.extractLsb' 8 8 := byteAt_of_prefix (i := 0) (k := 1) h rfl
    have h2 : byteAt bytes 2 = l.extractLsb' 0 8 := byteAt_of_prefix (i := 0) (k := 2) h rfl
    simp [decMux, h0, h1, h2, MuxBank.visible, gated]
  · have h0 : byteAt bytes 0 = 3#2 ++ l.extractLsb' 0 1 ++ t.extractLsb' 0 5 := byteAt_of_prefix (i := 0) (k := 0) h rfl
    obtain ⟨ht, hl⟩ : t.toNat ≤ 31 ∧ l.toNat ≤ 1 := of_decide_eq_true hfits
    have hlen : (l.extractLsb' 0 1).setWidth 16 = l := by
      apply BitVec.eq_of_toNat_eq
      simp
      omega
    have htype : (t.extractLsb' 0 5).setWidth 6 = t := by
      apply BitVec.eq_of_toNat_eq
      simp
      omega
    simp [decMux, h0, byte_form3, MuxBank.visible, gated, hlen, htype]

end

/-! ### Wire rows and the banks they load -/

section
variable {bytes : List Byte}

theorem wireInstr_of_decMux_form0 {t : BitVec 6} (h : decMux bytes = muxBankForm0 t) :
    wireInstr .mux bytes = .muxForm0 t := by simp [wireInstr, h, muxBankForm0]

theorem wireInstr_of_decMux_form1 {t : BitVec 6} {l : BitVec 8} (h : decMux bytes = muxBankForm1 t l) :
    wireInstr .mux bytes = .muxForm1 t l := by simp [wireInstr, h, muxBankForm1]

theorem wireInstr_of_decMux_form2 {t : BitVec 6} {l : BitVec 16} (h : decMux bytes = muxBankForm2 t l) :
    wireInstr .mux bytes = .muxForm2 t l := by simp [wireInstr, h, muxBankForm2]

theorem wireInstr_of_decMux_form3 {t : BitVec 5} {l : BitVec 1} (h : decMux bytes = muxBankForm3 t l) :
    wireInstr .mux bytes = .muxForm3 t l := by simp [wireInstr, h, muxBankForm3]

/-- Whatever the bytes are, they are read as one of the four forms (R159). -/
theorem decMux_cases (bytes : List Byte) :
    (∃ t, decMux bytes = muxBankForm0 t) ∨ (∃ t l, decMux bytes = muxBankForm1 t l)
    ∨ (∃ t l, decMux bytes = muxBankForm2 t l) ∨ ∃ t l, decMux bytes = muxBankForm3 t l := by
  rcases muxForm_cases ((byteAt bytes 0).extractLsb' 6 2) with h | h | h | h
  · exact .inl ⟨_, by simp only [decMux, h]; rfl⟩
  · exact .inr (.inl ⟨_, _, by simp only [decMux, h]; rfl⟩)
  · exact .inr (.inr (.inl ⟨_, _, by simp only [decMux, h]; rfl⟩))
  · exact .inr (.inr (.inr ⟨_, _, by simp only [decMux, h]; rfl⟩))

theorem wireInstr_arsp_of_reject (h : (decArsp bytes).ackNack = 0#1) :
    wireInstr .arsp bytes = .arspReject (decArsp bytes) := if_pos h

theorem wireInstr_arsp_of_accept (h : (decArsp bytes).ackNack = 1#1) :
    wireInstr .arsp bytes = .arspAccept (decArsp bytes) := if_neg (by rw [h]; decide)

/-- A well-formed wire row is what is read from bytes that begin with it. -/
theorem wireInstr_of_prefix {i : Instr} {b : Bank} (hwf : i.wellFormed = true) (hb : i.wireBank = some b)
    (h : encode i <+: bytes) : wireInstr b bytes = i := by
  cases i with
  | mht w => cases hb; exact congrArg Instr.mht (decMht_of_prefix h)
  | bh w => cases hb; exact congrArg Instr.bh (decBh_of_prefix h)
  | uh w => cases hb; exact congrArg Instr.uh (decUh_of_prefix h)
  | muxForm0 t => cases hb; exact wireInstr_of_decMux_form0 (decMux_of_prefix (b := muxBankForm0 t) rfl h)
  | muxForm1 t l =>
    cases hb
    have hfits : (muxBankForm1 t l).fits = true := by simp [MuxBank.fits, muxBankForm1]; omega
    exact wireInstr_of_decMux_form1 (decMux_of_prefix hfits h)
  | muxForm2 t l => cases hb; exact wireInstr_of_decMux_form2 (decMux_of_prefix (b := muxBankForm2 t l) rfl h)
  | muxForm3 t l =>
    cases hb
    have hfits : (muxBankForm3 t l).fits = true := by simp [MuxBank.fits, muxBankForm3]; omega
    exact wireInstr_of_decMux_form3 (decMux_of_prefix hfits h)
  | nb w => cases hb; exact congrArg Instr.nb ((decNb_of_prefix h).trans (of_decide_eq_true hwf))
  | cb w => cases hb; exact congrArg Instr.cb ((decCb_of_prefix h).trans (of_decide_eq_true hwf))
  | areq w => cases hb; exact congrArg Instr.areq ((decAreq_of_prefix h).trans (of_decide_eq_true hwf))
  | arspReject w =>
    cases hb
    obtain ⟨hack, hvisible⟩ := of_decide_eq_true hwf
    have hdec : decArsp bytes = w := (decArsp_of_prefix h).trans hvisible
    exact hdec ▸ wireInstr_arsp_of_reject (hdec ▸ hack)
  | arspAccept w =>
    cases hb
    obtain ⟨hack, hvisible⟩ := of_decide_eq_true hwf
    have hdec : decArsp bytes = w := (decArsp_of_prefix h).trans hvisible
    exact hdec ▸ wireInstr_arsp_of_accept (hdec ▸ hack)
  | rar w => cases hb; exact congrArg Instr.rar ((decRar_of_prefix h).trans (of_decide_eq_true hwf))
  | rdc w => cases hb; exact congrArg Instr.rdc (decRdc_of_prefix h)
  | aci w => cases hb; exact congrArg Instr.aci (decAci_of_prefix h)
  | _ => cases hb

/-- The wire row that bytes are has the bytes of the bank they load. -/
theorem encode_wireInstr (B : Banks) (b : Bank) (bytes : List Byte) :
    encode (wireInstr b bytes) = (B.load b bytes).enc b := by
  cases b with
  | mux =>
    change _ = encMux (decMux bytes)
    rcases decMux_cases bytes with ⟨t, h⟩ | ⟨t, l, h⟩ | ⟨t, l, h⟩ | ⟨t, l, h⟩
    · rw [wireInstr_of_decMux_form0 h, h]; rfl
    · rw [wireInstr_of_decMux_form1 h, h]; rfl
    · rw [wireInstr_of_decMux_form2 h, h]; rfl
    · rw [wireInstr_of_decMux_form3 h, h]; rfl
  | arsp =>
    rcases flag_cases (decArsp bytes).ackNack with h | h
    · rw [wireInstr_arsp_of_reject h]; rfl
    · rw [wireInstr_arsp_of_accept h]; rfl
  | mht | bh | uh | nb | cb | areq | rar | rdc | aci => rfl

/-- The size of a structure, as the mandatory part of the bytes gives it, is the length of their wire row (R93). -/
theorem sizeFromPrefix_eq_length (b : Bank) (bytes : List Byte) :
    sizeFromPrefix b (bytes.take b.prefixBytes) = (encode (wireInstr b bytes)).length := by
  rw [sizeFromPrefix_take {}, encode_wireInstr {}, banks_enc_length]

theorem prefixBytes_le_length (b : Bank) (bytes : List Byte) :
    b.prefixBytes ≤ (encode (wireInstr b bytes)).length := by
  rw [encode_wireInstr {}, banks_enc_length]
  exact prefixBytes_le_size _ b

end

/-- Settles O59: the row is read back with anything after it, so the size found in front is the row's length, and what
is cut off there is read back again. -/
theorem wireRowDecodesAsEncoded : Obligations.WireRowDecodesAsEncoded := by
  intro i b rest hwf hb
  have hrow : wireInstr b (encode i ++ rest) = i := wireInstr_of_prefix hwf hb ⟨rest, rfl⟩
  have hsize := sizeFromPrefix_eq_length b (encode i ++ rest)
  have hprefix := prefixBytes_le_length b (encode i ++ rest)
  rw [hrow] at hsize hprefix
  have hlength : (encode i ++ rest).length = (encode i).length + rest.length := List.length_append
  rw [decodeWire, if_neg (by omega)]
  simp only [hsize]
  rw [if_neg (by omega), List.take_left, List.drop_left, wireInstr_of_prefix hwf hb (List.prefix_refl _)]

/-! ### The meaning of the wire row that bytes are (R117, R120; log entry 2) -/

/-! What a decoder yields holds nothing behind a closed gate -/

theorem gated_gated {w : Nat} (isOpen : Bool) (v : BitVec w) : gated isOpen (gated isOpen v) = gated isOpen v := by
  cases isOpen <;> rfl

theorem gated_zero {w : Nat} (isOpen : Bool) : gated isOpen (0#w) = 0#w := by cases isOpen <;> rfl

theorem triple_keep_keep {w : Nat} (t : Triple (BitVec w)) (n : Nat) : (t.keep n).keep n = t.keep n := by
  simp only [Triple.keep, gated_gated]

theorem six_keep_keep {w : Nat} (t : Six (BitVec w)) (n : Nat) : (t.keep n).keep n = t.keep n := by
  simp only [Six.keep, gated_gated]

section
variable (bytes : List Byte)

theorem decNb_visible : (decNb bytes).visible = decNb bytes := by
  simp only [NbBank.visible, decNb, NbBank.mk.injEq, true_and]
  exact ⟨gated_gated _ _, gated_gated _ _, triple_keep_keep _ _⟩

theorem decCb_visible : (decCb bytes).visible = decCb bytes := by
  simp only [CbBank.visible, decCb, CbBank.mk.injEq, true_and]
  exact ⟨gated_gated _ _, gated_gated _ _, gated_gated _ _, gated_gated _ _⟩

theorem decAreq_visible : (decAreq bytes).visible = decAreq bytes := by
  simp only [AreqBank.visible, decAreq, AreqBank.mk.injEq, true_and]
  exact ⟨six_keep_keep _ _, gated_gated _ _, gated_gated _ _, gated_gated _ _, gated_gated _ _, gated_gated _ _⟩

theorem decArsp_visible : (decArsp bytes).visible = decArsp bytes := by
  rcases flag_cases ((byteAt bytes 0).extractLsb' 7 1) with hack | hack
  · simp [ArspBank.visible, decArsp, hack, gated, Six.keep]
  · have haccept : ¬ (byteAt bytes 0).extractLsb' 7 1 = 0#1 := by rw [hack]; decide
    simp only [decArsp, if_neg haccept]
    simp only [ArspBank.visible, hack, ArspBank.mk.injEq, true_and]
    exact ⟨gated_zero _, gated_zero _, gated_gated _ _, gated_gated _ _, gated_gated _ _, gated_gated _ _,
      six_keep_keep _ _, gated_gated _ _, gated_gated _ _⟩

theorem decRar_visible : (decRar bytes).visible = decRar bytes := by
  simp only [RarBank.visible, decRar, RarBank.mk.injEq, true_and]
  exact ⟨gated_gated _ _, gated_gated _ _, gated_gated _ _, gated_gated _ _, gated_gated _ _⟩

end

theorem prefixBytes_pos (b : Bank) : 0 < b.prefixBytes := by cases b <;> decide

theorem wireInstr_wireBank (b : Bank) (bytes : List Byte) : (wireInstr b bytes).wireBank = some b := by
  cases b with
  | mux =>
    rcases decMux_cases bytes with ⟨t, h⟩ | ⟨t, l, h⟩ | ⟨t, l, h⟩ | ⟨t, l, h⟩
    · rw [wireInstr_of_decMux_form0 h]; rfl
    · rw [wireInstr_of_decMux_form1 h]; rfl
    · rw [wireInstr_of_decMux_form2 h]; rfl
    · rw [wireInstr_of_decMux_form3 h]; rfl
  | arsp =>
    rcases flag_cases (decArsp bytes).ackNack with h | h
    · rw [wireInstr_arsp_of_reject h]; rfl
    · rw [wireInstr_arsp_of_accept h]; rfl
  | mht | bh | uh | nb | cb | areq | rar | rdc | aci => rfl

theorem wireInstr_wellFormed (b : Bank) (bytes : List Byte) : (wireInstr b bytes).wellFormed = true := by
  cases b with
  | mux =>
    rcases decMux_cases bytes with ⟨t, h⟩ | ⟨t, l, h⟩ | ⟨t, l, h⟩ | ⟨t, l, h⟩
    · rw [wireInstr_of_decMux_form0 h]; rfl
    · rw [wireInstr_of_decMux_form1 h]; rfl
    · rw [wireInstr_of_decMux_form2 h]; rfl
    · rw [wireInstr_of_decMux_form3 h]; rfl
  | arsp =>
    rcases flag_cases (decArsp bytes).ackNack with h | h
    · rw [wireInstr_arsp_of_reject h]
      exact decide_eq_true ⟨h, decArsp_visible bytes⟩
    · rw [wireInstr_arsp_of_accept h]
      exact decide_eq_true ⟨h, decArsp_visible bytes⟩
  | nb => exact decide_eq_true (decNb_visible bytes)
  | cb => exact decide_eq_true (decCb_visible bytes)
  | areq => exact decide_eq_true (decAreq_visible bytes)
  | rar => exact decide_eq_true (decRar_visible bytes)
  | mht | bh | uh | rdc | aci => rfl

/-- The wire row that bytes are takes in what `DES` loads from them. -/
theorem exec_wireInstr (b : Bank) (bytes : List Byte) (s : State) :
    exec (wireInstr b bytes) s = receive b (fun B => B.load b bytes) s := by
  cases b with
  | mux =>
    change _ = receive .mux (fun B => { B with mux := decMux bytes }) s
    rcases decMux_cases bytes with ⟨t, h⟩ | ⟨t, l, h⟩ | ⟨t, l, h⟩ | ⟨t, l, h⟩
    · rw [wireInstr_of_decMux_form0 h, h]; rfl
    · rw [wireInstr_of_decMux_form1 h, h]; rfl
    · rw [wireInstr_of_decMux_form2 h, h]; rfl
    · rw [wireInstr_of_decMux_form3 h, h]; rfl
  | arsp =>
    have hload {w : ArspBank} (hw : w = decArsp bytes) :
        receive .arsp (fun B => { B with arsp := w.visible }) s = receive .arsp (fun B => B.load .arsp bytes) s := by
      subst hw
      rw [decArsp_visible]
      rfl
    rcases flag_cases (decArsp bytes).ackNack with h | h
    · rw [wireInstr_arsp_of_reject h]
      exact hload (by rw [← h])
    · rw [wireInstr_arsp_of_accept h]
      exact hload (by rw [← h])
  | nb =>
    change receive .nb (fun B => { B with nb := (decNb bytes).visible }) s = _
    rw [decNb_visible]
    rfl
  | cb =>
    change receive .cb (fun B => { B with cb := (decCb bytes).visible }) s = _
    rw [decCb_visible]
    rfl
  | areq =>
    change receive .areq (fun B => { B with areq := (decAreq bytes).visible }) s = _
    rw [decAreq_visible]
    rfl
  | rar =>
    change receive .rar (fun B => { B with rar := (decRar bytes).visible }) s = _
    rw [decRar_visible]
    rfl
  | mht | bh | uh | rdc | aci => rfl

/-- Only what a command's body does on the state itself counts. -/
theorem command_congr {body body' : State → Done} {s : State} (h : body s = body' s) :
    command body s = command body' s := by
  rw [command, command, h]

/-- `DES` of a structure whose mandatory part fits in the buffer is the wire row that stands there, halted or not. -/
theorem exec_des_eq_exec_wireInstr {s : State} {b : Bank} {n : Nat}
    (hprefix : s.cur.toNat + b.prefixBytes ≤ Config.bufSize)
    (hn : sizeFromPrefix b (memRead s s.cur.toNat b.prefixBytes) = n) :
    exec (.des b) s = exec (wireInstr b (memRead s s.cur.toNat n)) s := by
  rw [exec_des, exec_wireInstr, receive]
  refine command_congr ?_
  rw [loadFromBuffer_go b s n hprefix hn, load_memRead_size s b hn]

/-- Settles O31: the bytes up to the end of the buffer hold a structure exactly where `DES` finds that one fits. -/
theorem desIsTheWireRowAtTheCursor : Obligations.DesIsTheWireRowAtTheCursor := by
  intro s b
  have hsize : Config.bufSize = 2048 := rfl
  rw [decodeWire, memRead_length]
  by_cases hprefix : 2048 - s.cur.toNat < b.prefixBytes
  · rw [if_pos hprefix]
    exact fun hrun => exec_des_overrun hrun rfl (.inl (by omega))
  · rw [if_neg hprefix, memRead_take _ _ _ _ (by omega)]
    generalize hn : sizeFromPrefix b (memRead s s.cur.toNat b.prefixBytes) = n
    dsimp only
    by_cases hfit : 2048 - s.cur.toNat < n
    · rw [if_pos hfit]
      exact fun hrun => exec_des_overrun hrun hn (.inr (by omega))
    · rw [if_neg hfit, memRead_take _ _ _ _ (by omega)]
      have hpos := prefixBytes_pos b
      exact ⟨exec_des_eq_exec_wireInstr (by omega) hn, wireInstr_wellFormed b _, wireInstr_wireBank b _⟩

/-! ### The illegal records (R89) -/

/-- A record that is no command. -/
def IsIllegal (d : Decoded) : Prop := ∃ why, d = .illegal why

theorem isIllegal_illegal (why : Illegal) : IsIllegal (.illegal why) := ⟨why, rfl⟩

theorem not_isIllegal_ok (i : Instr) : ¬ IsIllegal (.ok i) := fun ⟨_, h⟩ => by cases h

/-! The bank selector (R85) -/

theorem bank_sel_le (b : Bank) : b.sel ≤ 10 := by cases b <;> decide

theorem fieldCounts_sel (b : Bank) : fieldCounts.getD b.sel 0 = b.fieldCount := by cases b <;> rfl

/-- A selector names the bank with that number, or is out of range. -/
theorem bank_ofSel_cases (k : Nat) : (∃ b, Bank.ofSel k = some b ∧ b.sel = k) ∨ (Bank.ofSel k = none ∧ 10 < k) := by
  match k with
  | 0 | 1 | 2 | 3 | 4 | 5 | 6 | 7 | 8 | 9 | 10 => exact .inl ⟨_, rfl, rfl⟩
  | j + 11 => exact .inr ⟨rfl, by omega⟩

theorem withBank_of_sel {a0 : Word} {b : Bank} (h : Bank.ofSel a0.toNat = some b) (f : Bank → Decoded) :
    withBank a0 f = f b := by
  rw [withBank, h]

theorem withBank_of_none {a0 : Word} (h : Bank.ofSel a0.toNat = none) (f : Bank → Decoded) :
    withBank a0 f = .illegal .bank := by
  rw [withBank, h]

theorem withBank_ok_isIllegal (a0 : Word) (f : Bank → Instr) :
    IsIllegal (withBank a0 fun b => .ok (f b)) ↔ 10 < a0.toNat := by
  rcases bank_ofSel_cases a0.toNat with ⟨b, hb, hsel⟩ | ⟨hb, hsel⟩
  · have hle := bank_sel_le b
    rw [withBank_of_sel hb]
    exact iff_of_false (not_isIllegal_ok _) (by omega)
  · rw [withBank_of_none hb]
    exact iff_of_true (isIllegal_illegal _) hsel

/-- `DISP` names `MHT` or `MUX` (R89). -/
theorem withBank_disp_isIllegal (a0 : Word) :
    IsIllegal (withBank a0 fun b => if b = .mht ∨ b = .mux then .ok (.disp b) else .illegal .dispBank) ↔
      a0.toNat ≠ 0 ∧ a0.toNat ≠ 3 := by
  rcases bank_ofSel_cases a0.toNat with ⟨b, hb, hsel⟩ | ⟨hb, hsel⟩
  · rw [withBank_of_sel hb, ← hsel]
    cases b with
    | mht | mux => exact iff_of_false (not_isIllegal_ok _) (by decide)
    | bh | uh | nb | cb | areq | arsp | rar | rdc | aci => exact iff_of_true (isIllegal_illegal _) (by decide)
  · rw [withBank_of_none hb]
    exact iff_of_true (isIllegal_illegal _) (by omega)

/-! The field selector and the index (R86, R87) -/

theorem map_scalarAt_eq_none {α : Type} (f : α) (g : α → Reg) (idx : Nat) :
    (scalarAt f idx).map g = none ↔ 1 ≤ idx := by
  cases idx with
  | zero => exact iff_of_false (by simp [scalarAt]) (by omega)
  | succ k => exact iff_of_true rfl (by omega)

theorem map_idx3_eq_none {α : Type} (f : Idx3 → α) (g : α → Reg) (idx : Nat) :
    ((Idx3.ofIndex idx).map f).map g = none ↔ 3 ≤ idx := by
  match idx with
  | 0 | 1 | 2 => exact iff_of_false (by simp [Idx3.ofIndex]) (by decide)
  | k + 3 => exact iff_of_true rfl (by omega)

theorem map_idx6_eq_none {α : Type} (f : Idx6 → α) (g : α → Reg) (idx : Nat) :
    ((Idx6.ofIndex idx).map f).map g = none ↔ 6 ≤ idx := by
  match idx with
  | 0 | 1 | 2 | 3 | 4 | 5 => exact iff_of_false (by simp [Idx6.ofIndex]) (by decide)
  | k + 6 => exact iff_of_true rfl (by omega)

/-- A field of a bank has the indices below the number of its elements: three or six for an array, else one. -/
theorem reg_ofSel_eq_none {b : Bank} {field : Nat} (hfield : field < b.fieldCount) (idx : Nat) :
    Reg.ofSel b field idx = none ↔ indexCount b.sel field ≤ idx := by
  cases b <;> dsimp only [Bank.fieldCount] at hfield <;> interval_cases field
  all_goals first
    | exact map_scalarAt_eq_none _ _ idx
    | exact map_idx3_eq_none _ _ idx
    | exact map_idx6_eq_none _ _ idx

theorem withReg_isIllegal (a0 a1 a2 : Word) (f : Reg → Instr) :
    IsIllegal (withReg a0 a1 a2 fun r => .ok (f r)) ↔
      10 < a0.toNat ∨ (a0.toNat ≤ 10 ∧
        (fieldCounts.getD a0.toNat 0 ≤ a1.toNat ∨ indexCount a0.toNat a1.toNat ≤ a2.toNat)) := by
  unfold withReg
  rcases bank_ofSel_cases a0.toNat with ⟨b, hb, hsel⟩ | ⟨hb, hsel⟩
  · have hle := bank_sel_le b
    rw [withBank_of_sel hb, ← hsel, fieldCounts_sel]
    by_cases hfield : b.fieldCount ≤ a1.toNat
    · rw [if_pos hfield]
      exact iff_of_true (isIllegal_illegal _) (by omega)
    · rw [if_neg hfield]
      have hindex := reg_ofSel_eq_none (Nat.lt_of_not_le hfield) a2.toNat
      cases hr : Reg.ofSel b a1.toNat a2.toNat with
      | none =>
        rw [hr] at hindex
        exact iff_of_true (isIllegal_illegal _) (.inr ⟨hle, .inr (hindex.1 rfl)⟩)
      | some r =>
        rw [hr] at hindex
        have : ¬ indexCount b.sel a1.toNat ≤ a2.toNat := fun h => by cases hindex.2 h
        exact iff_of_false (not_isIllegal_ok _) (by omega)
  · rw [withBank_of_none hb]
    exact iff_of_true (isIllegal_illegal _) (.inl hsel)

/-! The `sel` operands (R89) -/

theorem withSel_isIllegal {α : Type} (x : Option α) (f : α → Instr) :
    IsIllegal (withSel x fun v => .ok (f v)) ↔ x = none := by
  cases x with
  | none => exact iff_of_true (isIllegal_illegal _) rfl
  | some v => exact iff_of_false (not_isIllegal_ok _) (by simp)

theorem bandSel_ofSel_eq_none (k : Nat) : BandSel.ofSel k = none ↔ 4 < k := by
  match k with
  | 0 | 1 | 2 | 3 | 4 => decide
  | j + 5 => exact iff_of_true rfl (by omega)

theorem subslotSel_ofSel_eq_none (k : Nat) : SubslotSel.ofSel k = none ↔ 2 < k := by
  match k with
  | 0 | 1 | 2 => decide
  | j + 3 => exact iff_of_true rfl (by omega)

theorem timeSel_ofSel_eq_none (k : Nat) : TimeSel.ofSel k = none ↔ 4 < k := by
  match k with
  | 0 | 1 | 2 | 3 | 4 => decide
  | j + 5 => exact iff_of_true rfl (by omega)

/-! The bits that must be zero (R82, R88) -/

/-- The bits from `k` up are zero exactly below `2 ^ k`. -/
theorem extractLsb'_eq_zero_iff_lt (a : Word) {k n : Nat} (h : k + n = 32) :
    a.extractLsb' k n = 0#n ↔ a.toNat < 2 ^ k := by
  have hhigh : a.toNat / 2 ^ k < 2 ^ n := Nat.div_lt_of_lt_mul (by rw [← Nat.pow_add, h]; exact a.isLt)
  rw [← BitVec.toNat_inj, BitVec.extractLsb'_toNat, Nat.shiftRight_eq_div_pow, Nat.mod_eq_of_lt hhigh,
    BitVec.toNat_ofNat, Nat.zero_mod, Nat.div_eq_zero_iff_lt (Nat.two_pow_pos k)]

theorem withSlotSub_isIllegal {a2 : Word} {f : Byte → Byte → Decoded} {P : Prop}
    (hf : ∀ slot subslot, IsIllegal (f slot subslot) ↔ P) :
    IsIllegal (withSlotSub a2 f) ↔ 65536 ≤ a2.toNat ∨ P := by
  unfold withSlotSub
  by_cases hzero : a2.extractLsb' 16 16 = 0#16
  · rw [if_pos hzero, hf]
    rw [extractLsb'_eq_zero_iff_lt a2 rfl] at hzero
    exact ⟨.inr, fun h => h.resolve_left (by omega)⟩
  · rw [if_neg hzero]
    rw [extractLsb'_eq_zero_iff_lt a2 rfl] at hzero
    exact iff_of_true (isIllegal_illegal _) (.inl (by omega))

theorem ssset_isIllegal (a0 a1 a3 : Word) (slot subslot : Byte) :
    IsIllegal
      (if a3.extractLsb' 18 14 = 0#14 then .ok (.ssset a0 a1 slot subslot (a3.extractLsb' 16 2) (a3.extractLsb' 0 16))
        else .illegal .mustBeZero) ↔ 262144 ≤ a3.toNat := by
  by_cases hzero : a3.extractLsb' 18 14 = 0#14
  · rw [if_pos hzero]
    rw [extractLsb'_eq_zero_iff_lt a3 rfl] at hzero
    exact iff_of_false (not_isIllegal_ok _) (by omega)
  · rw [if_neg hzero]
    rw [extractLsb'_eq_zero_iff_lt a3 rfl] at hzero
    exact iff_of_true (isIllegal_illegal _) (by omega)

/-- Settles O6: one case for each opcode, where what is illegal is a matter of its operand forms, and one for the gaps of
the opcode map (R84). -/
theorem illegalRecordsAreThoseOfR89 : Obligations.IllegalRecordsAreThoseOfR89 := by
  intro op a0 a1 a2 a3
  rw [decodeRecord_packRecord]
  change IsIllegal _ ↔ _
  unfold decodeOperands illegalByR89
  split
  case h_2 h | h_5 h | h_6 h | h_7 h => simp [h, withBank_ok_isIllegal]
  case h_3 h | h_4 h => simp [h, withReg_isIllegal]
  case h_8 h =>
    simp [h, withBank_disp_isIllegal]
    omega
  case h_15 h => simp [h, withSel_isIllegal, bandSel_ofSel_eq_none]
  case h_20 h =>
    rw [withSlotSub_isIllegal fun slot subslot => (withSel_isIllegal ..).trans (subslotSel_ofSel_eq_none _)]
    simp [h]
    exact or_comm
  case h_21 h => simp [h, withSlotSub_isIllegal (ssset_isIllegal a0 a1 a3)]
  case h_22 h => simp [h, withSel_isIllegal, timeSel_ofSel_eq_none]
  case h_29 =>
    simp only [imp_false] at *
    have hgap : (11 < op.toNat ∧ op.toNat < 16) ∨ (25 < op.toNat ∧ op.toNat < 32) ∨ (35 < op.toNat ∧ op.toNat < 48)
      ∨ 49 < op.toNat := by omega
    exact iff_of_true (isIllegal_illegal _) (hgap.imp_right (.imp_right (.imp_right .inl)))
  all_goals
    rename_i h
    simp [h, not_isIllegal_ok]

/-! ### What the decoder yields -/

/-- A decoded command is well formed and has opcode `op`. -/
def HasOpcode (op : Byte) : Decoded → Prop
  | .ok i => i.wellFormed = true ∧ i.opcode = some op
  | .illegal _ => True

section
variable {op : Byte}

theorem hasOpcode_ok {i : Instr} {k : Nat} (h : op.toNat = k) (hwf : i.wellFormed = true)
    (hop : i.opcode = some (BitVec.ofNat 8 k)) : HasOpcode op (.ok i) :=
  ⟨hwf, by rw [hop, ← h, BitVec.ofNat_toNat, BitVec.setWidth_eq]⟩

theorem hasOpcode_withBank {a0 : Word} {f : Bank → Decoded} (hf : ∀ b, HasOpcode op (f b)) :
    HasOpcode op (withBank a0 f) := by
  rcases bank_ofSel_cases a0.toNat with ⟨b, hb, -⟩ | ⟨hb, -⟩
  · rw [withBank_of_sel hb]
    exact hf b
  · rw [withBank_of_none hb]
    trivial

theorem hasOpcode_withReg {a0 a1 a2 : Word} {f : Reg → Decoded} (hf : ∀ r, HasOpcode op (f r)) :
    HasOpcode op (withReg a0 a1 a2 f) := by
  refine hasOpcode_withBank fun b => ?_
  split
  · trivial
  · cases Reg.ofSel b a1.toNat a2.toNat with
    | none => trivial
    | some r => exact hf r

theorem hasOpcode_withSel {α : Type} {x : Option α} {f : α → Decoded} (hf : ∀ v, HasOpcode op (f v)) :
    HasOpcode op (withSel x f) := by
  cases x with
  | none => trivial
  | some v => exact hf v

theorem hasOpcode_withSlotSub {a2 : Word} {f : Byte → Byte → Decoded}
    (hf : ∀ slot subslot, HasOpcode op (f slot subslot)) :
    HasOpcode op (withSlotSub a2 f) := by
  unfold withSlotSub
  split
  · exact hf _ _
  · trivial

theorem hasOpcode_decodeOperands (op : Byte) (a0 a1 a2 a3 : Word) : HasOpcode op (decodeOperands op a0 a1 a2 a3) := by
  unfold decodeOperands
  split
  case h_2 h | h_5 h | h_6 h | h_7 h => exact hasOpcode_withBank fun _ => hasOpcode_ok h rfl rfl
  case h_3 h | h_4 h => exact hasOpcode_withReg fun _ => hasOpcode_ok h rfl rfl
  case h_8 h =>
    refine hasOpcode_withBank fun b => ?_
    split
    case isTrue hb => exact hasOpcode_ok h (decide_eq_true hb) rfl
    case isFalse => trivial
  case h_15 h | h_22 h => exact hasOpcode_withSel fun _ => hasOpcode_ok h rfl rfl
  case h_20 h => exact hasOpcode_withSlotSub fun _ _ => hasOpcode_withSel fun _ => hasOpcode_ok h rfl rfl
  case h_21 h =>
    refine hasOpcode_withSlotSub fun _ _ => ?_
    split
    · exact hasOpcode_ok h rfl rfl
    · trivial
  case h_29 => trivial
  all_goals
    rename_i h
    exact hasOpcode_ok h rfl rfl

end

theorem encodeRecord_of_opcode {i : Instr} {op : Byte} (h : i.opcode = some op) :
    encodeRecord i = some (packRecord op i.operands) := by
  rw [encodeRecord, h, Option.map_some]

/-- Settles O57: the opcode is read off the case of the opcode map, and what is well formed decodes as encoded. -/
theorem decodedCommandIsWellFormed : Obligations.DecodedCommandIsWellFormed := by
  intro r i hdecode
  have hopcode : HasOpcode (r.extractLsb' 128 8) (decodeRecord r) := hasOpcode_decodeOperands ..
  rw [hdecode] at hopcode
  obtain ⟨hwf, hop⟩ := hopcode
  have hrecord := encodeRecord_of_opcode hop
  exact ⟨hwf, hop, _, hrecord, decodeRecord_encodeRecord hwf hrecord⟩

/-! ### `SIZE` (R90, R115) -/

theorem exec_size (b : Bank) (s : State) : exec (.size b) s = execSize b s := rfl

theorem decodeOperands_size (a0 a1 a2 a3 : Word) :
    decodeOperands 0x04#8 a0 a1 a2 a3 = withBank a0 fun b => .ok (.size b) := rfl

/-- No structure is longer than an Association Request with everything on the wire (R90). -/
theorem size_le (B : Banks) (b : Bank) : B.size b ≤ 19 := by
  cases b with
  | mht | bh | uh | rdc | aci => simp [Banks.size]
  | mux => simp only [Banks.size, MuxBank.size]; split_ifs <;> omega
  | nb => simp only [Banks.size, NbBank.size]; omega
  | cb => simp only [Banks.size, CbBank.size]; omega
  | areq =>
    have hflows := flows_le B.areq.numberOfFlows
    simp only [Banks.size, AreqBank.size]
    have hopt : B.areq.ftMode.toNat * (7 + 2 * B.areq.currentFlag.toNat) ≤ 1 * 9 :=
      Nat.mul_le_mul (by omega) (by omega)
    omega
  | arsp =>
    have hflows := flows_le B.arsp.numberOfFlows
    simp only [Banks.size, ArspBank.size]
    split <;> omega
  | rar => simp only [Banks.size, RarBank.size]; split <;> omega

/-- Settles O18: the size is answered, and lies between the bounds of every structure. -/
theorem sizeAnswersStructureSize : Obligations.SizeAnswersStructureSize := by
  refine ⟨fun k b a1 a2 a3 hk => ?_, fun s b hrun => ⟨?_, prefixBytes_le_size s.banks b, size_le s.banks b⟩⟩
  · rw [decodeRecord_packRecord, decodeOperands_size, word_of_banksBySelector hk, withBank_word]
  · rw [exec_size, execSize]
    exact command_ret hrun rfl

/-! ### `PWADD` and `PWSUB` (R281 to R283) -/

theorem exec_pwadd (band n : Word) (p : DWord) (s : State) :
    exec (.pwadd band n p) s = command (updatePower band n p fun acc q => acc + q) s := rfl

theorem exec_pwsub (band n : Word) (p : DWord) (s : State) :
    exec (.pwsub band n p) s = command (updatePower band n p fun acc q => acc - q) s := rfl

/-- The accumulators of a band are those of its model, or of the model `spec_create` would give it (R281). -/
theorem accumulator_eq (s : State) (b : Band) (k : Nat) :
    accumulator s b k = (((s.spec.get b).getD SpecModel.created).acc k).toInt := by
  unfold accumulator
  cases s.spec.get b <;> rfl

/-- An accumulator holds a signed 64-bit number (R44). -/
theorem accumulator_bounds (s : State) (b : Band) (k : Nat) :
    -(2 ^ 63) ≤ accumulator s b k ∧ accumulator s b k ≤ 2 ^ 63 - 1 := by
  rw [accumulator_eq]
  have hlow := BitVec.le_toInt (((s.spec.get b).getD SpecModel.created).acc k)
  have hhigh := BitVec.toInt_lt (x := ((s.spec.get b).getD SpecModel.created).acc k)
  omega

section
variable {s : State} {b : Band} {n : Word} {p : DWord}

/-- A power update whose exact result `a` fits the accumulator of the channel: it writes `a` there and nothing else. -/
theorem updatePower_writes_one {f : Int → Int → Int} {a : Int} (hrun : s.Running)
    (hwf : ∀ m, s.spec.get b = some m → m.WellFormed (Config.bandTable b)) (hn : InBand b n) (hp : p.toNat < 2 ^ 63)
    (ha : f (accumulator s b (channelIndex b n)) p.toNat = a) (hr : -(2 ^ 63) ≤ a ∧ a ≤ 2 ^ 63 - 1) :
    ∃ (m : SpecModel) (v : BitVec 64), command (updatePower (bandWord b) n p f) s =
        .next (({ s with spec := s.spec.set (some m) b } : State).answered .ok (v.extractLsb' 32 32) (v.extractLsb' 0 32))
      ∧ v.toInt = a
      ∧ ∀ k, (m.acc k).toInt = if k = channelIndex b n then v.toInt else accumulator s b k := by
  refine ⟨((s.spec.get b).getD SpecModel.created).setAcc (channelIndex b n) (BitVec.ofInt 64 a), BitVec.ofInt 64 a,
    command_ret hrun (updatePower_ok b n p f s a hn hp ha hr), ?_, fun k => ?_⟩
  · exact BitVec.toInt_ofInt_eq_self (by decide) (by omega) (by omega)
  · have hrise : cellsRise ((s.spec.get b).getD SpecModel.created).pwr = true := by
      cases hm : s.spec.get b with
      | none => rfl
      | some m => exact specModel_rise _ m (hwf m hm)
    rw [acc_setAcc _ _ _ _ hrise, accumulator_eq, apply_ite BitVec.toInt]

end

/-- Settles O46: a sum of a number above the lower bound and one that is not negative can only pass the upper bound. -/
theorem pwaddAddsToOneAccumulator : Obligations.PwaddAddsToOneAccumulator := by
  refine ⟨fun band n hi lo => decodeRecord_packRecord 0x20#8 band n hi lo, fun s b n p hrun hwf hn hp hfits => ?_⟩
  obtain ⟨hlow, -⟩ := accumulator_bounds s b (channelIndex b n)
  rw [exec_pwadd]
  exact updatePower_writes_one hrun hwf hn hp rfl ⟨by omega, by omega⟩

/-- Settles O47: a difference can only pass the lower bound. -/
theorem pwsubSubtractsFromOneAccumulator : Obligations.PwsubSubtractsFromOneAccumulator := by
  refine ⟨fun band n hi lo => decodeRecord_packRecord 0x21#8 band n hi lo, fun s b n p hrun hwf hn hp hfits => ?_⟩
  obtain ⟨-, hhigh⟩ := accumulator_bounds s b (channelIndex b n)
  rw [exec_pwsub]
  exact updatePower_writes_one hrun hwf hn hp rfl ⟨by omega, by omega⟩

/-! ### Illegal records at the port (R110) -/

theorem illegalRecord_eq_answered (s : State) :
    illegalRecord s = s.answered (if s.status.fatal then .halted else .illegalCommand) 0#32 0#32 := by
  unfold illegalRecord
  cases s.status.fatal <;> rfl

/-- Settles O5: the step answers the record on the state without it. -/
theorem stepRefusesIllegalRecord : Obligations.StepRefusesIllegalRecord := by
  intro s r rest why hport hdecode
  rw [step_command hport, runRecord, hdecode]
  exact congrArg Host.Outcome.next (illegalRecord_eq_answered _)

/-! ### `DISP` (R122, R160) -/

theorem exec_disp (b : Bank) (s : State) : exec (.disp b) s = execDisp b s := rfl

theorem exec_disp_mht {s : State} (hrun : s.Running) :
    exec (.disp .mht) s = .next (s.answered .ok (headerBank s.banks.mht.headerType) noLength) := by
  rw [exec_disp, execDisp]
  exact command_ret hrun rfl

theorem exec_disp_mux {s : State} (hrun : s.Running) :
    exec (.disp .mux) s = .next (s.answered .ok (ieBank s.banks.mux.macExt s.banks.mux.ieType)
      (if s.banks.mux.macExt = 0#2 then noLength else s.banks.mux.length.setWidth 32)) := by
  rw [exec_disp, execDisp]
  exact command_ret hrun rfl

theorem headerBank_eq (h : BitVec 4) :
    headerBank h = if h.toNat = 1 then 1#32 else if h.toNat = 2 then 2#32 else 255#32 := by
  revert h
  decide

theorem dispLength_eq (form : BitVec 2) (l : BitVec 16) :
    (if form = 0#2 then noLength else l.setWidth 32) =
      if form.toNat = 0 then 0xFFFFFFFF#32 else BitVec.ofNat 32 l.toNat := by
  rw [BitVec.ofNat_toNat]
  rcases muxForm_cases form with rfl | rfl | rfl | rfl <;> rfl

/-- Settles O21: the two lookups agree with the tables on every code, and the length is the register's number. -/
theorem dispSelectsNextBank : Obligations.DispSelectsNextBank := by
  refine ⟨fun a1 a2 a3 => ⟨?_, ?_⟩, fun s hrun => ⟨?_, ?_⟩⟩
  · exact decodeRecord_packRecord 0x07#8 0#32 a1 a2 a3
  · exact decodeRecord_packRecord 0x07#8 3#32 a1 a2 a3
  · rw [exec_disp_mht hrun, headerBank_eq]
    rfl
  · rw [exec_disp_mux hrun, dispLength_eq]
    refine congrArg (fun bank => Host.Outcome.next (s.answered .ok bank _)) ?_
    generalize s.banks.mux.macExt = form
    generalize s.banks.mux.ieType = code
    revert form code
    decide

/-! ### `BANDPARM` (R244) -/

theorem exec_bandparm (band : Word) (x : BandSel) (s : State) : exec (.bandparm band x) s = execBandparm band x s := rfl

theorem decodeOperands_bandparm (a0 a1 a2 a3 : Word) :
    decodeOperands 0x12#8 a0 a1 a2 a3 = withSel (BandSel.ofSel a1.toNat) fun x => .ok (.bandparm a0 x) := rfl

theorem exec_bandparm_supported {s : State} (hrun : s.Running) (b : Band) (x : BandSel) :
    exec (.bandparm (bandWord b) x) s = .next (s.answered .ok (BandParams.param (Config.bandTable b) x) 0#32) := by
  rw [exec_bandparm, execBandparm]
  exact command_ret hrun (withBandParams_bandWord b s _)

/-- Settles O33: the selector names one parameter, which is looked up for a supported band. -/
theorem bandparmAnswersParameter : Obligations.BandparmAnswersParameter := by
  refine ⟨fun band a2 a3 => ?_, fun s b hrun => ?_, fun s band x hrun hband => ?_, fun band sel a2 a3 hsel => ?_⟩
  · have hdecode (x : BandSel) :
        decodeRecord (packRecord 0x12#8 (band, x.sel, a2, a3)) = .ok (.bandparm band x) := by
      rw [decodeRecord_packRecord, decodeOperands_bandparm, withSel_ofSel_bandSel]
    exact ⟨hdecode .start, hdecode .stop, hdecode .step, hdecode .nStart, hdecode .nEnd⟩
  · have hexec := exec_bandparm_supported hrun b
    simp only [BitVec.ofNat_toNat]
    exact ⟨hexec .start, hexec .stop, hexec .step, hexec .nStart, hexec .nEnd⟩
  · rw [exec_bandparm, execBandparm]
    exact command_raised hrun (withBandParams_unsupported band s _ hband)
  · change IsIllegal _
    rw [decodeRecord_packRecord, decodeOperands_bandparm, withSel_isIllegal, bandSel_ofSel_eq_none]
    exact hsel

/-! ### `TLOC` (R254) -/

theorem exec_tloc (band : Word) (x : TimeSel) (t : DWord) (s : State) :
    exec (.tloc band x t) s = execTloc band x t s := rfl

theorem decodeOperands_tloc (a0 a1 a2 a3 : Word) :
    decodeOperands 0x19#8 a0 a1 a2 a3 = withSel (TimeSel.ofSel a1.toNat) fun x => .ok (.tloc a0 x (a2 ++ a3)) := rfl

theorem exec_tloc_init {s : State} (hrun : s.Running) {b : Band} {c : ChanTable} (hc : s.chan.get b = some c)
    (x : TimeSel) (t : DWord) :
    exec (.tloc (bandWord b) x t) s = .next (s.answered .ok (timeCoordinate t.toNat c.mu.duration x) 0#32) := by
  rw [exec_tloc, execTloc]
  exact command_ret hrun (withChanTable_init b s c _ hc)

/-- Settles O44: the selector names one coordinate, which is computed for a band with a channel list. -/
theorem tlocLocatesTick : Obligations.TlocLocatesTick := by
  refine ⟨fun band hi lo => ?_, fun s b t hrun => ⟨fun c hc => ?_, fun hnone x => ?_⟩⟩
  · have hdecode (x : TimeSel) :
        decodeRecord (packRecord 0x19#8 (band, x.sel, hi, lo)) = .ok (.tloc band x (hi ++ lo)) := by
      rw [decodeRecord_packRecord, decodeOperands_tloc, withSel_ofSel_timeSel]
    exact ⟨hdecode .frame, hdecode .slot, hdecode .subslot, hdecode .offset, hdecode .sfn⟩
  · have hexec (x : TimeSel) := exec_tloc_init hrun hc x t
    exact ⟨hexec .frame, hexec .slot, hexec .subslot, hexec .offset, hexec .sfn⟩
  · rw [exec_tloc, execTloc]
    exact command_raised hrun (withChanTable_none b s _ hnone)

/-! ### Samples -/

/-- Settles O60: the samples are closed terms, and the decoders evaluate on them. -/
theorem sampleWordsDecode : Obligations.SampleWordsDecode := by
  refine ⟨?_, ?_, ?_, ?_, ?_, ?_, ?_, ?_, ?_, ?_, ?_, ?_, ?_, ?_, ?_, ?_, ?_⟩
  all_goals decide

end Sys2Proof.Machine

/-! PROOFS for the family 40_codec_common.md. The codec laws come first: bytes that begin with `enc_B` have the size of `B`
and load what `B` shows, which gives the round trip; a wire row is loaded as it is. Then the registers: the selectors and
widths of the tables, and what a clear or a write leaves in each register. Last, the bytes of each structure as numbers: the
shift formulas of its encoding rule. -/

namespace Sys2Proof.Machine

/-! ### A structure before and after the wire (R130, R131) -/

/-- The form of a multiplexing header stands in its first byte, whether or not the header is consistent (R155). -/
theorem decMux_size_of_prefix {b : MuxBank} {bytes : List Byte} (h : encMux b <+: bytes) : (decMux bytes).size = b.size := by
  have hform : (byteAt bytes 0).extractLsb' 6 2 = b.macExt := by
    obtain ⟨form, t, l⟩ := b
    rcases muxForm_cases form with rfl | rfl | rfl | rfl
    · have h0 : byteAt bytes 0 = 0#2 ++ t := byteAt_of_prefix (i := 0) (k := 0) h rfl
      rw [h0, (byte_form0 t).1]
    · have h0 : byteAt bytes 0 = 1#2 ++ t := byteAt_of_prefix (i := 0) (k := 0) h rfl
      rw [h0, (byte_form1 t).1]
    · have h0 : byteAt bytes 0 = 2#2 ++ t := byteAt_of_prefix (i := 0) (k := 0) h rfl
      rw [h0, (byte_form2 t).1]
    · have h0 : byteAt bytes 0 = 3#2 ++ l.extractLsb' 0 1 ++ t.extractLsb' 0 5 :=
        byteAt_of_prefix (i := 0) (k := 0) h rfl
      rw [h0, (byte_form3 _ _).1]
  rw [decMux_size_eq, hform, MuxBank.size]

/-- Bytes that begin with a structure load what the structure shows (`vis_B`), and no other bank. -/
theorem load_of_prefix {B : Banks} {b : Bank} {bytes : List Byte} (hmux : b = .mux → B.mux.fits = true)
    (h : B.enc b <+: bytes) : B.load b bytes = B.visible b := by
  cases b with
  | mht => exact congrArg (fun w => { B with mht := w }) (decMht_of_prefix h)
  | bh => exact congrArg (fun w => { B with bh := w }) (decBh_of_prefix h)
  | uh => exact congrArg (fun w => { B with uh := w }) (decUh_of_prefix h)
  | mux => exact congrArg (fun w => { B with mux := w }) (decMux_of_prefix (hmux rfl) h)
  | nb => exact congrArg (fun w => { B with nb := w }) (decNb_of_prefix h)
  | cb => exact congrArg (fun w => { B with cb := w }) (decCb_of_prefix h)
  | areq => exact congrArg (fun w => { B with areq := w }) (decAreq_of_prefix h)
  | arsp => exact congrArg (fun w => { B with arsp := w }) (decArsp_of_prefix h)
  | rar => exact congrArg (fun w => { B with rar := w }) (decRar_of_prefix h)
  | rdc => exact congrArg (fun w => { B with rdc := w }) (decRdc_of_prefix h)
  | aci => exact congrArg (fun w => { B with aci := w }) (decAci_of_prefix h)

theorem visible_size (B : Banks) (b : Bank) : (B.visible b).size b = B.size b := by cases b <;> rfl

/-- Bytes that begin with a structure load a bank of its size: what is not shown is no flag. -/
theorem load_size_of_prefix {B : Banks} {b : Bank} {bytes : List Byte} (h : B.enc b <+: bytes) (C : Banks) :
    (C.load b bytes).size b = B.size b := by
  by_cases hmux : b = .mux
  · subst hmux
    exact decMux_size_of_prefix h
  · rw [load_size_eq C B, load_of_prefix (absurd · hmux) h, visible_size]

/-- Settles O27: the mandatory part of what was encoded fixes the size, and the bank loaded has the size of its source. -/
theorem sizeIsOneNumber : Obligations.SizeIsOneNumber := by
  intro B b rest
  have hprefix : B.enc b <+: B.enc b ++ rest := ⟨rest, rfl⟩
  refine ⟨banks_enc_length B b, ?_, load_size_of_prefix hprefix⟩
  rw [sizeFromPrefix_take {}, load_size_of_prefix hprefix]

/-! ### The round trip (R130) -/

theorem exec_seek (addr : Word) (s : State) : exec (.seek addr) s = execSeek addr s := rfl

section
variable {s : State}

theorem exec_seek_ok (hrun : s.Running) {addr : Word} (haddr : addr.toNat ≤ Config.bufSize) :
    exec (.seek addr) s = .next ((setCur s addr.toNat).answered .ok 0#32 0#32) := by
  rw [exec_seek, execSeek]
  exact command_ret hrun (if_neg (Nat.not_lt.2 haddr))

theorem exec_seek_overrun (hrun : s.Running) {addr : Word} (haddr : Config.bufSize < addr.toNat) :
    exec (.seek addr) s = .next (s.answered .bufferOverrun 0#32 0#32) := by
  rw [exec_seek, execSeek]
  exact command_raised hrun (if_pos haddr)

/-- A command that succeeds does not halt the block. -/
theorem running_of_record_ok (hrun : s.Running) {t : State} (ht : t.status = s.status.record .ok) : t.Running := by
  have hfatal : s.status.fatal = false := hrun
  simp [State.Running, ht, hfatal]

/-- `DES` where the buffer holds the bytes of a bank of the same contents. -/
theorem exec_des_of_memRead (hrun : s.Running) {b : Bank} (hmux : b = .mux → s.banks.mux.fits = true)
    (hread : memRead s s.cur.toNat (s.banks.size b) = s.banks.enc b)
    (hfit : s.cur.toNat + s.banks.size b ≤ Config.bufSize) :
    exec (.des b) s = .next
      ((setCur { s with banks := s.banks.visible b } (s.cur.toNat + s.banks.size b)).answered .ok
        (BitVec.ofNat 32 (s.banks.size b)) 0#32) := by
  have hle := prefixBytes_le_size s.banks b
  have hself : s.banks.enc b <+: s.banks.enc b := List.prefix_refl _
  have hn : sizeFromPrefix b (memRead s s.cur.toNat b.prefixBytes) = s.banks.size b := by
    rw [← memRead_take s _ _ _ hle, hread, sizeFromPrefix_take s.banks, load_size_of_prefix hself]
  rw [exec_des_fits hrun hn (by omega) hfit, hread, load_of_prefix hmux hself]

end

/-- Settles O26: `SER` puts `enc_B` where `SEEK` returns to, so `DES` reads exactly those bytes and loads `vis_B`. -/
theorem serSeekDesRoundTrip : Obligations.SerSeekDesRoundTrip := by
  intro s b hrun hmux hfit
  have hcur : (BitVec.ofNat 32 s.cur.toNat).toNat = s.cur.toNat := by simp; omega
  obtain ⟨t, hser, ht⟩ : ∃ t, exec (.ser b) s = .next t
      ∧ t = (setCur { s with buf := memWrite s.buf s.cur.toNat (s.banks.enc b) }
          (s.cur.toNat + s.banks.size b)).answered .ok (BitVec.ofNat 32 (s.banks.size b)) 0#32 :=
    ⟨_, exec_ser_fits hrun hmux hfit, rfl⟩
  have hrunT : t.Running := running_of_record_ok hrun (by rw [ht]; rfl)
  obtain ⟨u, hseek, hu⟩ : ∃ u, exec (.seek (BitVec.ofNat 32 s.cur.toNat)) t = .next u
      ∧ u = (setCur t s.cur.toNat).answered .ok 0#32 0#32 :=
    ⟨_, exec_seek_ok hrunT (by rw [hcur]; exact Nat.le_of_add_right_le hfit), by rw [hcur]⟩
  have hrunU : u.Running := running_of_record_ok hrunT (by rw [hu]; rfl)
  have hcurU : u.cur = s.cur := by rw [hu]; simp
  have hbanks : u.banks = s.banks := by rw [hu, ht]; rfl
  have hbuf : u.buf = memWrite s.buf s.cur.toNat (s.banks.enc b) := by rw [hu, ht]; rfl
  have hepoch : u.epoch = s.epoch := by rw [hu, ht]; rfl
  have hread : memRead u u.cur.toNat (u.banks.size b) = u.banks.enc b := by
    rw [hcurU, hbanks, ← banks_enc_length]
    exact memRead_memWrite s u _ _ hbuf hepoch
  have hdes := exec_des_of_memRead hrunU (hbanks ▸ hmux) hread (by rw [hcurU, hbanks]; exact hfit)
  rw [hcurU, hbanks] at hdes
  refine ⟨t, u, _, hser, hseek, hdes, ?_, rfl, ?_, hcurU, setCur_cur_toNat u _ hfit, ?_, fun a ha => ?_⟩
  · rw [hu, ht]
    simp
  · rw [ht]
    exact setCur_cur_toNat s _ hfit
  · rw [exec_size, execSize]
    exact command_ret hrun rfl
  · have hbyte := bufByte_memWrite s u s.cur.toNat (s.banks.enc b) a hbuf hepoch
    rw [banks_enc_length, if_neg ha] at hbyte
    exact hbyte

/-! ### Wire rows that stand at the cursor (R117; log entry 2) -/

section
variable {s : State}

/-- A structure taken in where banks `B`, in which it has size `n`, are loaded. -/
theorem receive_fits (hrun : s.Running) (b : Bank) {set : Banks → Banks} {B : Banks} {n : Nat} (hset : set s.banks = B)
    (hn : B.size b = n) (hfit : s.cur.toNat + n ≤ 2048) :
    receive b set s = .next
      (({ s with banks := B, cur := BitVec.ofNat 12 (s.cur.toNat + n) } : State).answered .ok (BitVec.ofNat 32 n) 0#32) := by
  subst hset hn
  exact command_ret hrun (finishLoad_fits _ _ _ hfit)

/-! A row without optional fields is loaded as it is -/

theorem exec_mht (w : MhtBank) (s : State) : exec (.mht w) s = receive .mht (fun B => { B with mht := w }) s := rfl
theorem exec_bh (w : BhBank) (s : State) : exec (.bh w) s = receive .bh (fun B => { B with bh := w }) s := rfl
theorem exec_uh (w : UhBank) (s : State) : exec (.uh w) s = receive .uh (fun B => { B with uh := w }) s := rfl
theorem exec_rdc (w : RdcBank) (s : State) : exec (.rdc w) s = receive .rdc (fun B => { B with rdc := w }) s := rfl
theorem exec_aci (w : AciBank) (s : State) : exec (.aci w) s = receive .aci (fun B => { B with aci := w }) s := rfl
theorem exec_muxForm0 (t : BitVec 6) (s : State) :
    exec (.muxForm0 t) s = receive .mux (fun B => { B with mux := muxBankForm0 t }) s := rfl
theorem exec_muxForm1 (t : BitVec 6) (l : BitVec 8) (s : State) :
    exec (.muxForm1 t l) s = receive .mux (fun B => { B with mux := muxBankForm1 t l }) s := rfl
theorem exec_muxForm2 (t : BitVec 6) (l : BitVec 16) (s : State) :
    exec (.muxForm2 t l) s = receive .mux (fun B => { B with mux := muxBankForm2 t l }) s := rfl
theorem exec_muxForm3 (t : BitVec 5) (l : BitVec 1) (s : State) :
    exec (.muxForm3 t l) s = receive .mux (fun B => { B with mux := muxBankForm3 t l }) s := rfl

/-! A well-formed row shows all that it holds, so it loads its contents as they are -/

theorem exec_nb {w : NbBank} (hwf : (Instr.nb w).wellFormed = true) :
    exec (.nb w) s = receive .nb (fun B => { B with nb := w }) s :=
  congrArg (fun v => receive .nb (fun B => { B with nb := v }) s) (of_decide_eq_true hwf)

theorem exec_cb {w : CbBank} (hwf : (Instr.cb w).wellFormed = true) :
    exec (.cb w) s = receive .cb (fun B => { B with cb := w }) s :=
  congrArg (fun v => receive .cb (fun B => { B with cb := v }) s) (of_decide_eq_true hwf)

theorem exec_areq {w : AreqBank} (hwf : (Instr.areq w).wellFormed = true) :
    exec (.areq w) s = receive .areq (fun B => { B with areq := w }) s :=
  congrArg (fun v => receive .areq (fun B => { B with areq := v }) s) (of_decide_eq_true hwf)

theorem exec_arspReject {w : ArspBank} (hack : w.ackNack = 0#1) (hvisible : w.visible = w) :
    exec (.arspReject w) s = receive .arsp (fun B => { B with arsp := w }) s := by
  have hrow : ArspBank.visible { w with ackNack := 0#1 } = w := by rw [← hack]; exact hvisible
  exact congrArg (fun v => receive .arsp (fun B => { B with arsp := v }) s) hrow

theorem exec_arspAccept {w : ArspBank} (hack : w.ackNack = 1#1) (hvisible : w.visible = w) :
    exec (.arspAccept w) s = receive .arsp (fun B => { B with arsp := w }) s := by
  have hrow : ArspBank.visible { w with ackNack := 1#1 } = w := by rw [← hack]; exact hvisible
  exact congrArg (fun v => receive .arsp (fun B => { B with arsp := v }) s) hrow

theorem exec_rar {w : RarBank} (hwf : (Instr.rar w).wellFormed = true) :
    exec (.rar w) s = receive .rar (fun B => { B with rar := w }) s :=
  congrArg (fun v => receive .rar (fun B => { B with rar := v }) s) (of_decide_eq_true hwf)

end

/-- Settles O28: a row is loaded as it is, and its size is that of its structure. -/
theorem fixedStructureLoadsItsBank : Obligations.FixedStructureLoadsItsBank := fun s hrun =>
  ⟨fun w hfit => (exec_mht w s).trans (receive_fits hrun .mht rfl rfl hfit),
    fun w hfit => (exec_bh w s).trans (receive_fits hrun .bh rfl rfl hfit),
    fun w hfit => (exec_uh w s).trans (receive_fits hrun .uh rfl rfl hfit),
    fun w hfit => (exec_rdc w s).trans (receive_fits hrun .rdc rfl rfl hfit),
    fun w hfit => (exec_aci w s).trans (receive_fits hrun .aci rfl rfl hfit)⟩

/-- Settles O29: a row of each form loads the header of that form, and the form fixes the size. -/
theorem muxFormLoadsMuxBank : Obligations.MuxFormLoadsMuxBank := by
  unfold Obligations.MuxFormLoadsMuxBank
  simp only [BitVec.ofNat_toNat]
  exact fun s hrun => ⟨fun t hfit => (exec_muxForm0 t s).trans (receive_fits hrun .mux rfl rfl hfit),
    fun t l hfit => (exec_muxForm1 t l s).trans (receive_fits hrun .mux rfl rfl hfit),
    fun t l hfit => (exec_muxForm2 t l s).trans (receive_fits hrun .mux rfl rfl hfit),
    fun t l hfit => (exec_muxForm3 t l s).trans (receive_fits hrun .mux rfl rfl hfit)⟩

/-- Settles O30: a well-formed row is loaded as it is, and the size of a rejecting `ARSP` is 2. -/
theorem variableStructureLoadsItsBank : Obligations.VariableStructureLoadsItsBank := by
  refine fun s hrun => ⟨fun w hwf hfit => ?_, fun w hwf hfit => ?_, fun w hwf hfit => ?_, fun w hwf hfit => ?_,
    fun w hwf hfit => ?_, fun w hwf hfit => ?_⟩
  · exact (exec_nb hwf).trans (receive_fits hrun .nb rfl rfl hfit)
  · exact (exec_cb hwf).trans (receive_fits hrun .cb rfl rfl hfit)
  · exact (exec_areq hwf).trans (receive_fits hrun .areq rfl rfl hfit)
  · obtain ⟨hack, hvisible⟩ := of_decide_eq_true hwf
    exact (exec_arspReject hack hvisible).trans (receive_fits hrun .arsp rfl (if_pos hack) hfit)
  · obtain ⟨hack, hvisible⟩ := of_decide_eq_true hwf
    exact (exec_arspAccept hack hvisible).trans (receive_fits hrun .arsp rfl rfl hfit)
  · exact (exec_rar hwf).trans (receive_fits hrun .rar rfl rfl hfit)

/-! ### The registers of the tables (R21 to R31, R85 to R87) -/

/-- Each entry of the tables is a register with the width and the selectors at which it stands. -/
theorem fieldTables_sound : ∀ table ∈ fieldTables.zipIdx, ∀ row ∈ table.1.zipIdx, ∀ entry ∈ row.1.2.zipIdx,
    entry.1.width = row.1.1 ∧ entry.1.bank.sel = table.2 ∧ entry.1.sel = (row.2, entry.2) := by
  decide

theorem registerAt_sound {bank field idx w : Nat} {r : Reg} (h : registerAt bank field idx = some (w, r)) :
    r.width = w ∧ r.bank.sel = bank ∧ r.sel = (field, idx) := by
  unfold registerAt at h
  cases htable : fieldTables[bank]? with
  | none => simp [htable] at h
  | some table =>
    cases hrow : table[field]? with
    | none => simp [htable, hrow] at h
    | some row =>
      obtain ⟨width, regs⟩ := row
      simp only [htable, hrow, Option.map_eq_some_iff, Prod.mk.injEq] at h
      obtain ⟨q, hq, rfl, rfl⟩ := h
      exact fieldTables_sound (table, bank) (List.mk_mem_zipIdx_iff_getElem?.2 htable)
        ((width, regs), field) (List.mk_mem_zipIdx_iff_getElem?.2 hrow) (q, idx) (List.mk_mem_zipIdx_iff_getElem?.2 hq)

/-- The tables hold every register, at its selectors and with its width. -/
theorem registerAt_sel (r : Reg) : registerAt r.bank.sel r.sel.1 r.sel.2 = some (r.width, r) := by
  cases r with
  | nb f =>
    cases f with
    | additionalChannel i => cases i <;> rfl
    | _ => rfl
  | areq f =>
    cases f with
    | flowId i => cases i <;> rfl
    | _ => rfl
  | arsp f =>
    cases f with
    | flowId i => cases i <;> rfl
    | _ => rfl
  | _ f => cases f <;> rfl

/-- The selectors at which a register stands decode to it. -/
theorem withReg_registerAt {bank field idx w : Nat} {r : Reg} (h : registerAt bank field idx = some (w, r))
    (f : Reg → Decoded) : withReg (BitVec.ofNat 32 bank) (BitVec.ofNat 32 field) (BitVec.ofNat 32 idx) f = f r := by
  obtain ⟨-, rfl, hsel⟩ := registerAt_sound h
  have hwords := withReg_words r f
  rw [Reg.bankWord, Reg.fieldWord, Reg.idxWord, hsel] at hwords
  exact hwords

theorem decodeOperands_set (a0 a1 a2 a3 : Word) :
    decodeOperands 0x02#8 a0 a1 a2 a3 = withReg a0 a1 a2 fun r => .ok (.set r a3) := rfl

theorem decodeOperands_get (a0 a1 a2 a3 : Word) :
    decodeOperands 0x03#8 a0 a1 a2 a3 = withReg a0 a1 a2 fun r => .ok (.get r) := rfl

theorem decodeOperands_rst (a0 a1 a2 a3 : Word) :
    decodeOperands 0x01#8 a0 a1 a2 a3 = withBank a0 fun b => .ok (.rst b) := rfl

/-! ### Reading a register after a clear or a write (R32, R111, R112) -/

theorem clear_read_same (B : Banks) (r : Reg) : (B.clear r.bank).read r = 0#32 :=
  Eq.trans (by cases r <;> rfl) (read_cleared r)

theorem clear_read_of_ne (B : Banks) {b : Bank} {r : Reg} (h : r.bank ≠ b) : (B.clear b).read r = B.read r := by
  cases r <;> cases b
  all_goals first | exact absurd rfl h | rfl

/-- A register of `w` bits keeps a value below `2 ^ w` (R113). -/
theorem setWidth_setWidth_word {w : Nat} {v : Word} (h : v.toNat < 2 ^ w) : (v.setWidth w).setWidth 32 = v := by
  apply BitVec.eq_of_toNat_eq
  rw [BitVec.toNat_setWidth, BitVec.toNat_setWidth, Nat.mod_eq_of_lt h, Nat.mod_eq_of_lt v.isLt]

theorem triple_get_set_same {α : Type} (t : Triple α) (v : α) (i : Idx3) : (t.set v i).get i = v := by cases i <;> rfl

theorem triple_get_set_of_ne {α : Type} (t : Triple α) (v : α) {i j : Idx3} (h : j ≠ i) :
    (t.set v i).get j = t.get j := by
  cases i <;> cases j
  all_goals first | exact absurd rfl h | rfl

theorem six_get_set_same {α : Type} (t : Six α) (v : α) (i : Idx6) : (t.set v i).get i = v := by cases i <;> rfl

theorem six_get_set_of_ne {α : Type} (t : Six α) (v : α) {i j : Idx6} (h : j ≠ i) :
    (t.set v i).get j = t.get j := by
  cases i <;> cases j
  all_goals first | exact absurd rfl h | rfl

/-- A written register reads back as the value, which fits its width. -/
theorem write_read_same (B : Banks) {v : Word} {r : Reg} (h : v.toNat < 2 ^ r.width) : (B.write v r).read r = v := by
  cases r with
  | nb f =>
    cases f with
    | additionalChannel i => exact (congrArg _ (triple_get_set_same ..)).trans (setWidth_setWidth_word h)
    | _ => exact setWidth_setWidth_word h
  | areq f =>
    cases f with
    | flowId i => exact (congrArg _ (six_get_set_same ..)).trans (setWidth_setWidth_word h)
    | _ => exact setWidth_setWidth_word h
  | arsp f =>
    cases f with
    | flowId i => exact (congrArg _ (six_get_set_same ..)).trans (setWidth_setWidth_word h)
    | _ => exact setWidth_setWidth_word h
  | _ f => cases f <;> exact setWidth_setWidth_word h

theorem write_read_of_bank_ne (B : Banks) (v : Word) {q r : Reg} (h : q.bank ≠ r.bank) :
    (B.write v r).read q = B.read q := by
  cases r <;> cases q
  all_goals first | exact absurd rfl h | rfl

/-! Another element of an array field -/

theorem nb_write_read_of_ne (b : NbBank) (v : Word) {i j : Idx3} (h : j ≠ i) :
    (b.write v (.additionalChannel i)).read (.additionalChannel j) = b.read (.additionalChannel j) :=
  congrArg (BitVec.setWidth 32) (triple_get_set_of_ne b.additionalChannel (v.setWidth 13) h)

theorem areq_write_read_of_ne (b : AreqBank) (v : Word) {i j : Idx6} (h : j ≠ i) :
    (b.write v (.flowId i)).read (.flowId j) = b.read (.flowId j) :=
  congrArg (BitVec.setWidth 32) (six_get_set_of_ne b.flowId (v.setWidth 6) h)

theorem arsp_write_read_of_ne (b : ArspBank) (v : Word) {i j : Idx6} (h : j ≠ i) :
    (b.write v (.flowId i)).read (.flowId j) = b.read (.flowId j) :=
  congrArg (BitVec.setWidth 32) (six_get_set_of_ne b.flowId (v.setWidth 6) h)

/-- No register but the one written changes: in another bank, in another field of the bank, or at another index. -/
theorem write_read_of_ne (B : Banks) (v : Word) {q r : Reg} (h : q ≠ r) : (B.write v r).read q = B.read q := by
  by_cases hbank : q.bank = r.bank
  · cases r <;> cases q <;> cases hbank
    all_goals
      rename_i f g
      cases f <;> cases g
    all_goals first | rfl | exact absurd rfl h | rename_i i j
    · exact nb_write_read_of_ne B.nb v (i := i) (j := j) fun hi => h (by rw [hi])
    · exact areq_write_read_of_ne B.areq v (i := i) (j := j) fun hi => h (by rw [hi])
    · exact arsp_write_read_of_ne B.arsp v (i := i) (j := j) fun hi => h (by rw [hi])
  · exact write_read_of_bank_ne B v hbank

/-! ### `RST`, `SET` and `GET` (R111 to R114) -/

theorem exec_rst (b : Bank) (s : State) : exec (.rst b) s = execRst b s := rfl
theorem exec_set (r : Reg) (value : Word) (s : State) : exec (.set r value) s = execSet r value s := rfl
theorem exec_get (r : Reg) (s : State) : exec (.get r) s = execGet r s := rfl

/-- Settles O15: a clear leaves 0 in the registers of its bank and keeps the others. -/
theorem rstClearsOneBank : Obligations.RstClearsOneBank := by
  refine ⟨fun k b a1 a2 a3 hk => ⟨(word_of_banksBySelector hk).symm, ?_⟩, fun s b hrun =>
    ⟨s.banks.clear b, ?_, fun r => ?_⟩⟩
  · rw [decodeRecord_packRecord, decodeOperands_rst, word_of_banksBySelector hk, withBank_word]
  · rw [exec_rst, execRst]
    exact command_ret hrun rfl
  · split
    case isTrue hbank => exact hbank ▸ clear_read_same s.banks r
    case isFalse hbank => exact clear_read_of_ne s.banks hbank

/-- The codes of R34 in the form of the statements. -/
theorem headerTypeHasVariant_iff (k : Nat) : headerTypeHasVariant k = true ↔ k ∈ [0, 1, 2, 3, 15] := by
  simp [headerTypeHasVariant, or_assoc]

theorem legal_iff (r : Reg) (value : Word) : r.legal value = true ↔ LegalValue r value := by
  unfold Reg.legal LegalValue
  split
  case h_1 => rw [if_pos rfl, headerTypeHasVariant_iff]
  case h_2 hother => rw [if_neg hother, decide_eq_true_iff]

/-- Every legal value fits the width of its register, the codes of `MHT.headerType` too. -/
theorem lt_of_legalValue {r : Reg} {value : Word} (h : LegalValue r value) : value.toNat < 2 ^ r.width := by
  unfold LegalValue at h
  split at h
  case isTrue hr =>
    subst hr
    have hcode : ∀ k ∈ [0, 1, 2, 3, 15], k < 2 ^ (Reg.mht .headerType).width := by decide
    exact hcode _ h
  case isFalse => exact h

/-- Settles O16: the tables give every register its selectors and its width, and a legal value fits the width. -/
theorem setWritesOneRegister : Obligations.SetWritesOneRegister := by
  refine ⟨fun bank field idx w r v h => ⟨?_, (registerAt_sound h).1⟩, fun r => ⟨_, _, _, _, registerAt_sel r⟩,
    fun r v => ?_, fun s r value hrun => ⟨fun hlegal => ⟨s.banks.write value r, ?_, fun q => ?_⟩, fun hillegal => ?_⟩⟩
  · rw [decodeRecord_packRecord, decodeOperands_set, withReg_registerAt h]
  · rw [decodeRecord_packRecord, decodeOperands_set, withReg_words]
  · rw [exec_set, execSet]
    exact command_ret hrun (if_pos ((legal_iff r value).2 hlegal))
  · split
    case isTrue hq => exact hq ▸ write_read_same s.banks (hq ▸ lt_of_legalValue hlegal)
    case isFalse hq => exact write_read_of_ne s.banks value hq
  · rw [exec_set, execSet]
    exact command_raised hrun (if_neg fun h => hillegal ((legal_iff r value).1 h))

theorem toNat_setWidth_lt {w : Nat} (x : BitVec w) : (x.setWidth 32).toNat < 2 ^ w := by
  rw [BitVec.toNat_setWidth]
  exact (Nat.mod_le _ _).trans_lt x.isLt

/-- A register holds a value of its width (R32). -/
theorem read_lt (B : Banks) (r : Reg) : (B.read r).toNat < 2 ^ r.width := by
  cases r with
  | _ f => cases f <;> exact toNat_setWidth_lt _

/-- Settles O17: the answer is the register, zero-extended from its width. -/
theorem getAnswersRegister : Obligations.GetAnswersRegister := by
  refine ⟨fun bank field idx w r a3 h => ⟨?_, (registerAt_sound h).1⟩, fun r a3 => ?_, fun s r hrun =>
    ⟨?_, read_lt s.banks r⟩⟩
  · rw [decodeRecord_packRecord, decodeOperands_get, withReg_registerAt h]
  · rw [decodeRecord_packRecord, decodeOperands_get, withReg_words]
  · rw [exec_get, execGet]
    exact command_ret hrun rfl

/-! ### `NOP`, `STCLR`, `SEEK` and `TELL` (R123, R124, R127, R128) -/

theorem exec_nop (s : State) : exec .nop s = command (fun s => .ret s 0#32 0#32) s := rfl
theorem exec_stclr (s : State) : exec .stclr s = command (fun s => .ret (clearFaults s) 0#32 0#32) s := rfl
theorem exec_tell (s : State) : exec .tell s = command (fun s => .ret s (s.cur.setWidth 32) 0#32) s := rfl

/-- An answer without a fault changes nothing of `STATUS` but `LAST_FAULT` (R310). -/
theorem record_ok (t : Status) : t.record .ok = { t with lastFault := .ok } := by simp [Status.record]

theorem answered_ok_eq (s : State) (r0 r1 : Word) :
    s.answered .ok r0 r1 = { s with
      status := { s.status with lastFault := .ok }, responses := s.responses ++ [⟨.ok, r0, r1⟩] } := by
  rw [← record_ok]
  rfl

/-- Settles O12: a body that only answers leaves what R310 writes. -/
theorem nopOnlyClearsLastFault : Obligations.NopOnlyClearsLastFault := by
  refine ⟨fun a0 a1 a2 a3 => decodeRecord_packRecord 0x00#8 a0 a1 a2 a3, fun s => ?_⟩
  rw [exec_nop]
  refine ⟨fun hrun => ?_, command_halted _ s⟩
  rw [command_ret hrun rfl, answered_ok_eq]

/-- Settles O14: on a running block `FATAL` is 0 already, and a halted one never runs the body. -/
theorem stclrClearsStickyBits : Obligations.StclrClearsStickyBits := by
  refine ⟨fun a0 a1 a2 a3 => decodeRecord_packRecord 0x30#8 a0 a1 a2 a3, fun s => ?_⟩
  rw [exec_stclr]
  refine ⟨fun hrun => ?_, command_halted _ s⟩
  have hfatal : s.status.fatal = false := hrun
  rw [command_ret hrun rfl, answered_ok_eq]
  simp [clearFaults, Status.clearSticky, hfatal]

/-- Settles O22: the bound is the only check, and only the cursor moves. -/
theorem seekMovesCursor : Obligations.SeekMovesCursor :=
  ⟨fun addr a1 a2 a3 => decodeRecord_packRecord 0x08#8 addr a1 a2 a3, fun _ _ hrun =>
    ⟨exec_seek_ok hrun, exec_seek_overrun hrun⟩⟩

/-- Settles O23: the cursor zero-extended is the word of its number. -/
theorem tellAnswersCursor : Obligations.TellAnswersCursor := by
  refine ⟨fun a0 a1 a2 a3 => decodeRecord_packRecord 0x09#8 a0 a1 a2 a3, fun s hrun => ?_⟩
  rw [BitVec.ofNat_toNat, exec_tell]
  exact command_ret hrun rfl

/-! ### The pieces of a structure, as numbers (R132) -/

/-! Parts of a number: its high bits and its low bits -/

theorem toNat_extract_high {k n : Nat} (x : BitVec (k + n)) : (x.extractLsb' k n).toNat = x.toNat / 2 ^ k := by
  rw [BitVec.extractLsb'_toNat, Nat.shiftRight_eq_div_pow,
    Nat.mod_eq_of_lt (Nat.div_lt_of_lt_mul (by rw [← Nat.pow_add]; exact x.isLt))]

theorem toNat_extract_low {w k : Nat} (x : BitVec w) : (x.extractLsb' 0 k).toNat = x.toNat % 2 ^ k := by
  rw [BitVec.extractLsb'_toNat, Nat.shiftRight_zero]

theorem toNat_extract_mid {w k n : Nat} (x : BitVec w) : (x.extractLsb' k n).toNat = x.toNat / 2 ^ k % 2 ^ n := by
  rw [BitVec.extractLsb'_toNat, Nat.shiftRight_eq_div_pow]

/-- Reserved bits on top of a field do not count. -/
theorem toNat_zero_append {a b : Nat} (x : BitVec b) : (0#a ++ x).toNat = x.toNat := by
  rw [BitVec.toNat_append, BitVec.toNat_zero, Nat.zero_shiftLeft, Nat.zero_or]

/-! The writers of R132 on numbers -/

theorem put13_toNat (c : BitVec 13) : (put13 c).map BitVec.toNat = bytes13 c.toNat := by
  have hhigh := toNat_extract_high (k := 8) (n := 5) c
  simp only [put13, bytes13, List.map, toNat_zero_append, hhigh, toNat_extract_low]

theorem put24_toNat (v : BitVec 24) : (put24 v).map BitVec.toNat = bytes24 v.toNat := by
  have hhigh := toNat_extract_high (k := 16) (n := 8) v
  have hmid := toNat_extract_mid (k := 8) (n := 8) v
  simp only [put24, bytes24, List.map, hhigh, hmid, toNat_extract_low]

theorem put32_toNat (v : Word) : (put32 v).map BitVec.toNat = bytes32 v.toNat := word_bytes_toNat v

/-! Optional pieces and arrays -/

theorem optBytes_toNat {isOpen : Prop} [Decidable isOpen] (bytes : List Byte) :
    (optBytes isOpen bytes).map BitVec.toNat = if isOpen then bytes.map BitVec.toNat else [] := by
  by_cases hopen : isOpen <;> simp [optBytes, hopen]

theorem eq_zero_iff_toNat {w : Nat} (x : BitVec w) : x = 0#w ↔ x.toNat = 0 := by
  rw [← BitVec.toNat_inj, BitVec.toNat_zero]

theorem flag_iff (f : BitVec 1) : f = 1#1 ↔ f.toNat = 1 := BitVec.toNat_inj.symm

theorem flows_toNat (n : BitVec 3) : flows n = if n.toNat = 7 then 0 else n.toNat := by
  revert n
  decide

/-- The flow identifiers that are carried (R191). -/
theorem putFlow_toNat (t : Six (BitVec 6)) (n : BitVec 3) :
    ((t.toList.take (flows n)).map putFlow).map BitVec.toNat = flowBytes n.toNat fun i => (t.get i).toNat := by
  have hflow : BitVec.toNat ∘ putFlow = BitVec.toNat := funext toNat_zero_append
  rw [List.map_map, hflow, List.map_take, flows_toNat]
  rfl

/-- Channel numbers one after the other (R172). -/
theorem flatten_put13_toNat (l : List (BitVec 13)) :
    (l.map put13).flatten.map BitVec.toNat = (l.map BitVec.toNat).flatMap bytes13 := by
  induction l with
  | nil => rfl
  | cons c l ih =>
    rw [List.map_cons, List.flatten_cons, List.map_append, put13_toNat, ih]
    rfl

/-! ### The shift formulas (R142, R147, R152, R158, R172, R182, R193, R202, R212, R223, R227)

A byte written as the concatenation of its fields is, as a number, the fields shifted to their places: a shift goes over
the fields in front of it (`Nat.shiftLeft_or_distrib`), shifts add up, and reserved bits add nothing. -/

theorem encMht_toNat (b : MhtBank) : (encMht b).map BitVec.toNat =
    [b.version.toNat <<< 6 ||| b.security.toNat <<< 4 ||| b.headerType.toNat] := by
  simp only [encMht, List.map, BitVec.toNat_append, Nat.shiftLeft_or_distrib, ← Nat.shiftLeft_add]

theorem encBh_toNat (b : BhBank) :
    (encBh b).map BitVec.toNat = bytes24 b.networkId.toNat ++ bytes32 b.transmitterAddress.toNat := by
  rw [encBh, List.map_append, put24_toNat, put32_toNat]

theorem encUh_toNat (b : UhBank) : (encUh b).map BitVec.toNat =
    [b.reset.toNat <<< 4 ||| b.sequenceNumber.toNat / 2 ^ 8, b.sequenceNumber.toNat % 2 ^ 8]
      ++ bytes32 b.receiverAddress.toNat ++ bytes32 b.transmitterAddress.toNat := by
  have hhigh := toNat_extract_high (k := 8) (n := 4) b.sequenceNumber
  simp only [encUh, List.map_append, List.map_cons, List.map_nil, BitVec.toNat_append, BitVec.toNat_zero,
    Nat.zero_shiftLeft, Nat.zero_or, hhigh, toNat_extract_low, put32_toNat]

/-! The four forms of a multiplexing header: the form stands in bits 7:6 -/

section
variable (t : BitVec 6) (l : BitVec 16)

theorem encMux_form0_toNat : (encMux ⟨0#2, t, l⟩).map BitVec.toNat = [t.toNat] :=
  congrArg (fun x => [x]) (toNat_zero_append t)

theorem encMux_form1_toNat : (encMux ⟨1#2, t, l⟩).map BitVec.toNat = [0x40 ||| t.toNat, l.toNat % 2 ^ 8] :=
  congrArg₂ (fun x y => [x, y]) (BitVec.toNat_append 1#2 t) (toNat_extract_low l)

theorem encMux_form2_toNat :
    (encMux ⟨2#2, t, l⟩).map BitVec.toNat = [0x80 ||| t.toNat, l.toNat / 2 ^ 8, l.toNat % 2 ^ 8] := by
  have hhigh := toNat_extract_high (k := 8) (n := 8) l
  change [(2#2 ++ t).toNat, (l.extractLsb' 8 8).toNat, (l.extractLsb' 0 8).toNat] = _
  rw [BitVec.toNat_append, hhigh, toNat_extract_low]
  rfl

theorem encMux_form3_toNat :
    (encMux ⟨3#2, t, l⟩).map BitVec.toNat = [0xC0 ||| (l.toNat % 2) <<< 5 ||| t.toNat % 2 ^ 5] := by
  change [(3#2 ++ l.extractLsb' 0 1 ++ t.extractLsb' 0 5).toNat] = _
  rw [BitVec.toNat_append, BitVec.toNat_append, toNat_extract_low, toNat_extract_low, Nat.shiftLeft_or_distrib]
  rfl

end

theorem encNb_toNat (b : NbBank) : (encNb b).map BitVec.toNat =
    [b.txPowerFlag.toNat <<< 4 ||| b.powerConst.toNat <<< 3 ||| b.currentFlag.toNat <<< 2 ||| b.nbChannels.toNat,
      b.nbPeriod.toNat <<< 4 ||| b.cbPeriod.toNat]
      ++ bytes13 b.nextClusterChannel.toNat ++ bytes32 b.timeToNext.toNat
      ++ (if b.txPowerFlag.toNat = 1 then [b.clustersMaxTxPower.toNat] else [])
      ++ (if b.currentFlag.toNat = 1 then bytes13 b.currentClusterChannel.toNat else [])
      ++ ((b.additionalChannel.toList.map BitVec.toNat).take b.nbChannels.toNat).flatMap bytes13 := by
  simp only [encNb, List.map_append, List.map_cons, List.map_nil, BitVec.toNat_append, BitVec.toNat_zero,
    Nat.zero_shiftLeft, Nat.zero_or, Nat.shiftLeft_or_distrib, ← Nat.shiftLeft_add, put13_toNat, put32_toNat,
    optBytes_toNat, flag_iff, flatten_put13_toNat, ← List.map_take]

theorem encCb_toNat (b : CbBank) : (encCb b).map BitVec.toNat =
    [b.sfn.toNat,
      b.txPowerFlag.toNat <<< 4 ||| b.powerConst.toNat <<< 3 ||| b.foFlag.toNat <<< 2 ||| b.nextChannelFlag.toNat <<< 1
        ||| b.timeToNextFlag.toNat,
      b.nbPeriod.toNat <<< 4 ||| b.cbPeriod.toNat,
      b.countToTrigger.toNat <<< 4 ||| b.relQuality.toNat <<< 2 ||| b.minQuality.toNat]
      ++ (if b.txPowerFlag.toNat = 1 then [b.clustersMaxTxPower.toNat] else [])
      ++ (if b.foFlag.toNat = 1 then [b.frameOffset.toNat] else [])
      ++ (if b.nextChannelFlag.toNat = 1 then bytes13 b.nextClusterChannel.toNat else [])
      ++ (if b.timeToNextFlag.toNat = 1 then bytes32 b.timeToNext.toNat else []) := by
  simp only [encCb, List.map_append, List.map_cons, List.map_nil, BitVec.toNat_append, BitVec.toNat_zero,
    Nat.zero_shiftLeft, Nat.zero_or, Nat.shiftLeft_or_distrib, ← Nat.shiftLeft_add, put13_toNat, put32_toNat,
    optBytes_toNat, flag_iff]

theorem encAreq_toNat (b : AreqBank) : (encAreq b).map BitVec.toNat =
    [b.setupCause.toNat <<< 5 ||| b.numberOfFlows.toNat <<< 2 ||| b.powerConst.toNat <<< 1 ||| b.ftMode.toNat,
      b.currentFlag.toNat <<< 7,
      b.harqProcessesTx.toNat <<< 5 ||| b.maxHarqReTx.toNat,
      b.harqProcessesRx.toNat <<< 5 ||| b.maxHarqReRx.toNat]
      ++ (flowBytes b.numberOfFlows.toNat fun i => (b.flowId.get i).toNat)
      ++ (if b.ftMode.toNat = 1 then
            [b.nbPeriod.toNat <<< 4 ||| b.cbPeriod.toNat]
              ++ bytes13 b.nextClusterChannel.toNat ++ bytes32 b.timeToNext.toNat
              ++ (if b.currentFlag.toNat = 1 then bytes13 b.currentClusterChannel.toNat else [])
          else []) := by
  simp only [encAreq, List.map_append, List.map_cons, List.map_nil, BitVec.toNat_append, BitVec.toNat_zero, Nat.or_zero,
    Nat.shiftLeft_or_distrib, ← Nat.shiftLeft_add, put13_toNat, put32_toNat, optBytes_toNat, flag_iff, putFlow_toNat]

theorem encArsp_toNat (b : ArspBank) : (encArsp b).map BitVec.toNat =
    [b.ackNack.toNat <<< 7 ||| b.harqMod.toNat <<< 5 ||| b.numberOfFlows.toNat <<< 2 ||| b.group.toNat <<< 1]
      ++ (if b.ackNack.toNat = 0 then [b.rejectCause.toNat <<< 4 ||| b.rejectTime.toNat]
          else
            (if b.harqMod.toNat = 1 then
              [b.harqProcessesRx.toNat <<< 5 ||| b.maxHarqReRx.toNat,
                b.harqProcessesTx.toNat <<< 5 ||| b.maxHarqReTx.toNat]
            else [])
              ++ (flowBytes b.numberOfFlows.toNat fun i => (b.flowId.get i).toNat)
              ++ (if b.group.toNat = 1 then [b.groupId.toNat, b.resourceTag.toNat] else [])) := by
  simp only [encArsp, List.map_append, List.map_cons, List.map_nil, BitVec.toNat_append, BitVec.toNat_zero,
    Nat.zero_shiftLeft, Nat.zero_or, Nat.or_zero, Nat.shiftLeft_or_distrib, ← Nat.shiftLeft_add, apply_ite (List.map _),
    optBytes_toNat, flag_iff, eq_zero_iff_toNat, putFlow_toNat]

theorem encRar_toNat (b : RarBank) : (encRar b).map BitVec.toNat =
    [b.repeatMode.toNat <<< 3 ||| b.sfnFlag.toNat <<< 2 ||| b.channelFlag.toNat <<< 1 ||| b.chan2Flag.toNat,
      b.startSubslot.toNat,
      b.lengthType.toNat <<< 7 ||| b.length.toNat,
      b.maxLenType.toNat <<< 7 ||| b.maxRachLength.toNat <<< 3 ||| b.cwMinSig.toNat,
      b.dectDelay.toNat <<< 7 ||| b.responseWindow.toNat <<< 3 ||| b.cwMaxSig.toNat]
      ++ (if b.repeatMode.toNat ≠ 0 then [b.repetition.toNat, b.validity.toNat] else [])
      ++ (if b.sfnFlag.toNat = 1 then [b.sfnOffset.toNat] else [])
      ++ (if b.channelFlag.toNat = 1 then bytes13 b.channel.toNat else [])
      ++ (if b.chan2Flag.toNat = 1 then bytes13 b.channel2.toNat else []) := by
  simp only [encRar, List.map_append, List.map_cons, List.map_nil, BitVec.toNat_append, BitVec.toNat_zero,
    Nat.zero_shiftLeft, Nat.zero_or, Nat.shiftLeft_or_distrib, ← Nat.shiftLeft_add, put13_toNat, optBytes_toNat,
    flag_iff, ne_eq, eq_zero_iff_toNat]

theorem encRdc_toNat (b : RdcBank) : (encRdc b).map BitVec.toNat =
    [b.numPhyCap.toNat <<< 5 ||| b.release.toNat,
      b.groupAss.toNat <<< 5 ||| b.paging.toNat <<< 4 ||| b.operatingModes.toNat <<< 2 ||| b.mesh.toNat <<< 1
        ||| b.schedul.toNat,
      b.macSecurity.toNat <<< 5 ||| b.dlcServiceType.toNat <<< 2,
      b.rdPowerClass.toNat <<< 4 ||| b.maxNssRx.toNat <<< 2 ||| b.rxForTxDiversity.toNat,
      b.rxGain.toNat <<< 4 ||| b.maxMcs.toNat,
      b.softBufferSize.toNat <<< 4 ||| b.numHarqProcesses.toNat <<< 2,
      b.harqFeedbackDelay.toNat] := by
  simp only [encRdc, List.map_cons, List.map_nil, BitVec.toNat_append, BitVec.toNat_zero, Nat.zero_shiftLeft,
    Nat.zero_or, Nat.or_zero, Nat.shiftLeft_or_distrib, ← Nat.shiftLeft_add]

theorem encAci_toNat (b : AciBank) : (encAci b).map BitVec.toNat =
    [b.cbM.toNat <<< 7 ||| b.dlDataReception.toNat <<< 4 ||| b.ulPeriod.toNat] := by
  simp only [encAci, List.map, BitVec.toNat_append, Nat.shiftLeft_or_distrib, ← Nat.shiftLeft_add]

/-- Settles O58: `GET` reads the number of a field (its width is at most 32), and the bytes are made of these numbers. -/
theorem structureBytesAreThoseOfTheSpec : Obligations.StructureBytesAreThoseOfTheSpec := by
  intro B
  simp (disch := decide) only [Banks.read, MhtBank.read, BhBank.read, UhBank.read, MuxBank.read, NbBank.read, CbBank.read,
    AreqBank.read, ArspBank.read, RarBank.read, RdcBank.read, AciBank.read, BitVec.toNat_setWidth_of_le]
  refine ⟨encMht_toNat B.mht, encBh_toNat B.bh, encUh_toNat B.uh, ?_, encNb_toNat B.nb, encCb_toNat B.cb,
    encAreq_toNat B.areq, encArsp_toNat B.arsp, encRar_toNat B.rar, encRdc_toNat B.rdc, encAci_toNat B.aci⟩
  change (encMux B.mux).map BitVec.toNat = _
  obtain ⟨form, t, l⟩ := B.mux
  rcases muxForm_cases form with rfl | rfl | rfl | rfl
  · exact encMux_form0_toNat t l
  · exact encMux_form1_toNat t l
  · exact encMux_form2_toNat t l
  · exact encMux_form3_toNat t l

end Sys2Proof.Machine

/-! PROOFS for the family 45_channel_table.md. The constraints of R241 make the two searches of the group exact: a channel
number lies in one band, and a frequency is that of one channel. On them rest the answers of `CFREQ`, `CHFREQ`, `CHID` and
`BIN` and the laws of R256. Then the refusals: what a band without a channel list and what an unsupported band is answered,
and that nothing but the lookup of an unsupported band halts the block. -/

namespace Sys2Proof.Machine

/-! ### The band table (R241, R242) -/

/-- The open rows come with their constraints, so the whole table has them. -/
theorem bandTable_legal : Config.LegalTable Config.bandTable := Config.openRows.legal

/-- Settles O32: the constraints hold of any open rows, and the other two rows are the defaults. -/
theorem bandTableIsLegal : Obligations.BandTableIsLegal := ⟨bandTable_legal, rfl, rfl⟩

theorem freq_eq (p : BandParams) (k : Nat) : BandParams.freq p k = p.start.toNat + k * p.step.toNat := rfl

/-- A centre frequency is at most that of the last channel, which fits 32 bits (R241 (b)). -/
theorem freq_toNat (b : Band) {k : Nat} (hk : k ≤ (Config.bandTable b).lastIndex) :
    (BitVec.ofNat 32 (BandParams.freq (Config.bandTable b) k)).toNat = BandParams.freq (Config.bandTable b) k := by
  have hstop := bandTable_legal.stop_eq b
  have hlt := (Config.bandTable b).stop.isLt
  have hmul := Nat.mul_le_mul_right (Config.bandTable b).step.toNat hk
  rw [BitVec.toNat_ofNat, Nat.mod_eq_of_lt]
  rw [freq_eq]
  omega

/-- A channel number lies in at most one band (R241 (c)). -/
theorem inBand_unique {b c : Band} {n : Word} (hb : InBand b n) (hc : InBand c n) : b = c := by
  by_contra hne
  obtain ⟨hb1, hb2⟩ := hb
  obtain ⟨hc1, hc2⟩ := hc
  rcases bandTable_legal.disjoint b c hne with h | h
  · omega
  · omega

/-- A channel number is read back from its position in the band. -/
theorem ofNat_nStart_add_channelIndex {b : Band} {n : Word} (hn : InBand b n) :
    BitVec.ofNat 32 ((Config.bandTable b).nStart.toNat + channelIndex b n) = n := by
  rw [channelIndex, Nat.add_sub_cancel' hn.1, BitVec.ofNat_toNat, BitVec.setWidth_eq]

theorem mem_bandsAscending (b : Band) : b ∈ bandsAscending := by cases b <;> decide

/-! ### The band of a channel number (R249) -/

theorem bandOfChannel_of_inBand {b : Band} {n : Word} (hn : InBand b n) {bands : List Band} (hb : b ∈ bands) :
    bandOfChannel n.toNat bands = some b := by
  induction bands with
  | nil => cases hb
  | cons c bands ih =>
    unfold bandOfChannel
    by_cases hc : InBand c n
    · rw [if_pos ((contains_iff c n).2 hc), inBand_unique hc hn]
    · have hbc : b ≠ c := fun h => hc (h ▸ hn)
      rw [if_neg (mt (contains_iff c n).1 hc), ih (List.mem_of_ne_of_mem hbc hb)]

theorem bandOfChannel_of_none {n : Word} (hn : ∀ b, ¬ InBand b n) (bands : List Band) :
    bandOfChannel n.toNat bands = none := by
  induction bands with
  | nil => rfl
  | cons c bands ih => rw [bandOfChannel, if_neg (mt (contains_iff c n).1 (hn c)), ih]

/-! ### The channel of a frequency (R250) -/

/-- The index found is that of the channel with this centre frequency (R241 (a)). -/
theorem indexOfFreq_eq_some (b : Band) (f k : Nat) :
    BandParams.indexOfFreq (Config.bandTable b) f = some k
      ↔ k ≤ (Config.bandTable b).lastIndex ∧ f = BandParams.freq (Config.bandTable b) k := by
  have hstep := bandTable_legal.step_pos b
  rw [BandParams.indexOfFreq, Option.ite_none_right_eq_some, freq_eq, Option.some_inj]
  constructor
  · rintro ⟨⟨hstart, hmod, hle⟩, rfl⟩
    have hmul := Nat.div_mul_cancel (Nat.dvd_of_mod_eq_zero hmod)
    exact ⟨hle, by omega⟩
  · rintro ⟨hk, rfl⟩
    rw [Nat.add_sub_cancel_left, Nat.mul_mod_left, Nat.mul_div_cancel k hstep]
    exact ⟨⟨Nat.le_add_right .., rfl, hk⟩, rfl⟩

theorem channelOfFreq_of_freq {b : Band} {k : Nat} (hk : k ≤ (Config.bandTable b).lastIndex) {bands : List Band}
    (hb : b ∈ bands) : channelOfFreq (BandParams.freq (Config.bandTable b) k) bands = some (b, k) := by
  induction bands with
  | nil => cases hb
  | cons c bands ih =>
    unfold channelOfFreq
    cases hm : BandParams.indexOfFreq (Config.bandTable c) (BandParams.freq (Config.bandTable b) k) with
    | some m =>
      obtain ⟨hmle, hfreq⟩ := (indexOfFreq_eq_some c _ m).1 hm
      obtain ⟨rfl, rfl⟩ := bandTable_legal.distinct b c k m hk hmle hfreq
      rfl
    | none =>
      have hbc : b ≠ c := by
        rintro rfl
        rw [(indexOfFreq_eq_some b _ k).2 ⟨hk, rfl⟩] at hm
        cases hm
      exact ih (List.mem_of_ne_of_mem hbc hb)

theorem channelOfFreq_of_none {f : Nat}
    (hf : ∀ b k, k ≤ (Config.bandTable b).lastIndex → f ≠ BandParams.freq (Config.bandTable b) k) (bands : List Band) :
    channelOfFreq f bands = none := by
  induction bands with
  | nil => rfl
  | cons c bands ih =>
    unfold channelOfFreq
    cases hm : BandParams.indexOfFreq (Config.bandTable c) f with
    | some m =>
      obtain ⟨hmle, hfreq⟩ := (indexOfFreq_eq_some c f m).1 hm
      exact absurd hfreq (hf c m hmle)
    | none => exact ih

/-! ### `CFREQ`, `CHFREQ`, `CHID`, `BIN` and `CHVALID` (R247 to R251) -/

theorem exec_cfreq (band n : Word) (s : State) : exec (.cfreq band n) s = execCfreq band n s := rfl
theorem exec_chfreq (n : Word) (s : State) : exec (.chfreq n) s = execChfreq n s := rfl
theorem exec_chid (f : Word) (s : State) : exec (.chid f) s = execChid f s := rfl
theorem exec_bin (band n : Word) (s : State) : exec (.bin band n) s = execBin band n s := rfl
theorem exec_chvalid (band : Word) (s : State) : exec (.chvalid band) s = execChvalid band s := rfl
theorem exec_rssi (band n : Word) (s : State) : exec (.rssi band n) s = execRssi band n s := rfl

section
variable {s : State} (hrun : s.Running) {b : Band} {n band : Word}
include hrun

theorem exec_cfreq_in (hn : InBand b n) :
    exec (.cfreq (bandWord b) n) s =
      .next (s.answered .ok (BitVec.ofNat 32 (BandParams.freq (Config.bandTable b) (channelIndex b n))) 0#32) := by
  rw [exec_cfreq, execCfreq]
  refine command_ret hrun ?_
  rw [withBandParams_bandWord, withChannel_in b n s _ hn]

theorem exec_cfreq_out (hn : ¬ InBand b n) :
    exec (.cfreq (bandWord b) n) s = .next (s.answered .invalidArgument 0#32 0#32) := by
  rw [exec_cfreq, execCfreq]
  refine command_raised hrun ?_
  rw [withBandParams_bandWord, withChannel_out b n s _ hn]

theorem exec_cfreq_unsupported (hband : Unsupported band) :
    exec (.cfreq band n) s = .next (s.answered .fatalConfiguration 0#32 0#32) := by
  rw [exec_cfreq, execCfreq]
  exact command_raised hrun (withBandParams_unsupported band s _ hband)

theorem exec_bin_in (hn : InBand b n) :
    exec (.bin (bandWord b) n) s = .next (s.answered .ok (BitVec.ofNat 32 (channelIndex b n)) 0#32) := by
  rw [exec_bin, execBin]
  refine command_ret hrun ?_
  rw [withBandParams_bandWord, withChannel_in b n s _ hn]

theorem exec_bin_out (hn : ¬ InBand b n) :
    exec (.bin (bandWord b) n) s = .next (s.answered .invalidArgument 0#32 0#32) := by
  rw [exec_bin, execBin]
  refine command_raised hrun ?_
  rw [withBandParams_bandWord, withChannel_out b n s _ hn]

theorem exec_bin_unsupported (hband : Unsupported band) :
    exec (.bin band n) s = .next (s.answered .fatalConfiguration 0#32 0#32) := by
  rw [exec_bin, execBin]
  exact command_raised hrun (withBandParams_unsupported band s _ hband)

theorem exec_chfreq_in (hn : InBand b n) :
    exec (.chfreq n) s =
      .next (s.answered .ok (BitVec.ofNat 32 (BandParams.freq (Config.bandTable b) (channelIndex b n))) (bandWord b)) := by
  rw [exec_chfreq, execChfreq]
  refine command_ret hrun ?_
  rw [bandOfChannel_of_inBand hn (mem_bandsAscending b), channelIndex]

theorem exec_chfreq_out (hn : ∀ b, ¬ InBand b n) :
    exec (.chfreq n) s = .next (s.answered .invalidArgument 0#32 0#32) := by
  rw [exec_chfreq, execChfreq]
  refine command_raised hrun ?_
  rw [bandOfChannel_of_none hn]

theorem exec_chid_freq {f : Word} {k : Nat} (hk : k ≤ (Config.bandTable b).lastIndex)
    (hf : f.toNat = BandParams.freq (Config.bandTable b) k) :
    exec (.chid f) s =
      .next (s.answered .ok (BitVec.ofNat 32 ((Config.bandTable b).nStart.toNat + k)) (bandWord b)) := by
  rw [exec_chid, execChid]
  refine command_ret hrun ?_
  rw [hf, channelOfFreq_of_freq hk (mem_bandsAscending b)]

theorem exec_chid_none {f : Word}
    (hf : ∀ b k, k ≤ (Config.bandTable b).lastIndex → f.toNat ≠ BandParams.freq (Config.bandTable b) k) :
    exec (.chid f) s = .next (s.answered .invalidArgument 0#32 0#32) := by
  rw [exec_chid, execChid]
  refine command_raised hrun ?_
  rw [channelOfFreq_of_none hf]

theorem exec_chvalid_init {c : ChanTable} (hc : s.chan.get b = some c) :
    exec (.chvalid (bandWord b)) s = .next (s.answered .ok (BandParams.countWord (Config.bandTable b))
      ((Config.bandTable b).nStart.setWidth 32)) := by
  rw [exec_chvalid, execChvalid]
  refine command_ret hrun ?_
  simp only [bandOf_bandWord, hc]

theorem exec_chvalid_none (hc : s.chan.get b = none) :
    exec (.chvalid (bandWord b)) s = .next (s.answered .ok 0#32 0#32) := by
  rw [exec_chvalid, execChvalid]
  refine command_ret hrun ?_
  simp only [bandOf_bandWord, hc]

theorem exec_chvalid_unsupported (hband : Unsupported band) :
    exec (.chvalid band) s = .next (s.answered .ok 0#32 0#32) := by
  rw [exec_chvalid, execChvalid]
  refine command_ret hrun ?_
  rw [(bandOf_eq_none band).2 hband]

end

/-- Settles O37: the answer is the channel's centre frequency, which fits the word. -/
theorem cfreqAnswersCentreFrequency : Obligations.CfreqAnswersCentreFrequency :=
  ⟨fun band n a2 a3 => decodeRecord_packRecord 0x13#8 band n a2 a3,
    fun _ _ _ hrun hband => exec_cfreq_unsupported hrun hband,
    fun _ b n hrun => ⟨fun hn => ⟨_, exec_cfreq_in hrun hn, freq_toNat b (channelIndex_le b n hn)⟩, exec_cfreq_out hrun⟩⟩

/-- Settles O38: the search stops at the one band that holds the number. -/
theorem chfreqFindsBandOfChannel : Obligations.ChfreqFindsBandOfChannel :=
  ⟨fun n a1 a2 a3 => decodeRecord_packRecord 0x14#8 n a1 a2 a3, fun _ n hrun =>
    ⟨fun b hn => ⟨_, exec_chfreq_in hrun hn, freq_toNat b (channelIndex_le b n hn)⟩, exec_chfreq_out hrun⟩⟩

/-- Settles O39: the search stops at the one channel that has the frequency. -/
theorem chidFindsChannelOfFrequency : Obligations.ChidFindsChannelOfFrequency :=
  ⟨fun f a1 a2 a3 => decodeRecord_packRecord 0x15#8 f a1 a2 a3, fun _ _ hrun =>
    ⟨fun _ _ hk hf => exec_chid_freq hrun hk hf, exec_chid_none hrun⟩⟩

/-- Settles O40: the answer is the index that the channel check computes. -/
theorem binAnswersIndex : Obligations.BinAnswersIndex :=
  ⟨fun band n a2 a3 => decodeRecord_packRecord 0x16#8 band n a2 a3,
    fun _ _ _ hrun hband => exec_bin_unsupported hrun hband,
    fun _ _ _ hrun => ⟨exec_bin_in hrun, exec_bin_out hrun⟩⟩

/-- Settles O36: the pair of an initialised band, and (0, 0) where there is no list. -/
theorem chvalidAnswersChannelList : Obligations.ChvalidAnswersChannelList := by
  refine ⟨fun band a1 a2 a3 => decodeRecord_packRecord 0x11#8 band a1 a2 a3, fun s hrun =>
    ⟨fun b c hc => ?_, fun b => exec_chvalid_none hrun, fun band => exec_chvalid_unsupported hrun⟩⟩
  rw [BitVec.ofNat_toNat]
  exact exec_chvalid_init hrun hc

/-! ### The laws of the channel group (R256) -/

/-- R256 (a): on a running block `CFREQ` answers by its operands alone. -/
theorem exec_cfreq_answer (band n : Word) :
    ∃ c r0, ∀ s : State, s.Running → exec (.cfreq band n) s = .next (s.answered c r0 0#32) := by
  rcases band_cases band with ⟨b, rfl⟩ | hband
  · by_cases hn : InBand b n
    · exact ⟨_, _, fun s hrun => exec_cfreq_in hrun hn⟩
    · exact ⟨_, _, fun s hrun => exec_cfreq_out hrun hn⟩
  · exact ⟨_, _, fun s hrun => exec_cfreq_unsupported hrun hband⟩

/-- R256 (c): the subslots of a slot of the table just built fill the slot. -/
theorem built_durations_sum (m : Mu) (k slot : Nat) :
    ((List.range m.subslots).map fun j => ((ChanTable.built m).sub k slot j).duration.toNat).sum = Config.slotTicks := by
  simp only [built_sub, freshRec_duration, List.map_const', List.length_range, List.sum_replicate, smul_eq_mul]
  exact m.subslots_mul_duration

/-- What `CHINIT` with a legal scaling factor leaves in its band. -/
theorem exec_chinit_chan {s t : State} {b : Band} {c : ChanTable} {mu : Word} (hrun : s.Running) (hmu : LegalMu mu)
    (ht : exec (.chinit (bandWord b) mu) s = .next t) (hc : t.chan.get b = some c) :
    ∃ m : Mu, c = ChanTable.built m ∧ m.toNat = mu.toNat := by
  rcases muOf_cases mu with ⟨m, hm, hnum, -⟩ | ⟨-, hillegal⟩
  · rw [exec_chinit_supported hrun, scaleOrWarn_some mu s hm] at ht
    cases ht
    rw [answered_chan, perBand_get_set, if_pos rfl] at hc
    cases hc
    exact ⟨m, rfl, hnum⟩
  · exact absurd hmu hillegal

/-- R256 (d): a tick is put together from its coordinates, where the subslots fill the slot. -/
theorem tickOf_coordinates (t : Nat) {d : Nat} (hd : d ∣ Config.slotTicks) :
    tickOf (t / Config.frameTicks) (t % Config.frameTicks / Config.slotTicks) (t % Config.slotTicks / d) (t % d) d = t := by
  have hsubslot := Nat.div_add_mod' (t % Config.slotTicks) d
  rw [Nat.mod_mod_of_dvd t hd] at hsubslot
  have hslot := Nat.div_add_mod' (t % Config.frameTicks) Config.slotTicks
  rw [Nat.mod_mod_of_dvd t (by decide)] at hslot
  have hframe := Nat.div_add_mod' t Config.frameTicks
  unfold tickOf
  omega

/-- R254: the coordinates are within their ranges. -/
theorem coordinates_lt (t : Nat) (m : Mu) :
    t % Config.frameTicks / Config.slotTicks < Config.slotsPerFrame
    ∧ t % Config.slotTicks / m.duration < m.subslots ∧ t % m.duration < m.duration := by
  refine ⟨Nat.div_lt_of_lt_mul (Nat.mod_lt t (by decide)), Nat.div_lt_of_lt_mul ?_, Nat.mod_lt t m.duration_pos⟩
  rw [Nat.mul_comm, m.subslots_mul_duration]
  exact Nat.mod_lt t (by decide)

theorem duration_dvd_slotTicks (m : Mu) : m.duration ∣ Config.slotTicks :=
  ⟨m.subslots, by rw [Nat.mul_comm, m.subslots_mul_duration]⟩

theorem toNat_ofNat_word {v : Nat} (hv : v < 2 ^ 32) : (BitVec.ofNat 32 v).toNat = v := by
  rw [BitVec.toNat_ofNat, Nat.mod_eq_of_lt hv]

/-- The coordinates `TLOC` answers, as numbers; the frame number only where it fits the word. -/
theorem timeCoordinate_toNat (t : Nat) (m : Mu) :
    (t / Config.frameTicks < 2 ^ 32 → (timeCoordinate t m.duration .frame).toNat = t / Config.frameTicks)
    ∧ (timeCoordinate t m.duration .slot).toNat = t % Config.frameTicks / Config.slotTicks
    ∧ (timeCoordinate t m.duration .subslot).toNat = t % Config.slotTicks / m.duration
    ∧ (timeCoordinate t m.duration .offset).toNat = t % m.duration := by
  obtain ⟨hslot, hsubslot, hoffset⟩ := coordinates_lt t m
  have hslots : Config.slotsPerFrame < 2 ^ 32 := by decide
  have hsubslots := m.subslots_le
  have hduration : m.duration ≤ 720 := Nat.le_of_dvd (by decide) (duration_dvd_slotTicks m)
  exact ⟨toNat_ofNat_word, toNat_ofNat_word (by omega), toNat_ofNat_word (by omega), toNat_ofNat_word (by omega)⟩

/-- Settles O45: `CFREQ` reads no state; the two searches find a channel again; the table just built and the coordinates of
a tick are those of the frame structure. -/
theorem channelLaws : Obligations.ChannelLaws := by
  refine ⟨fun s s' band n hrun hrun' => ?_, fun s b n hrun hn => ?_, fun s t b c mu k slot hrun hmu ht hc => ?_,
    fun s b c t hrun hc hframe => ?_⟩
  · obtain ⟨code, r0, hexec⟩ := exec_cfreq_answer band n
    exact ⟨_, _, _, hexec s hrun, hexec s' hrun', rfl, rfl⟩
  · have hindex := channelIndex_le b n hn
    have hrun' : (s.answered .ok (BitVec.ofNat 32 (BandParams.freq (Config.bandTable b) (channelIndex b n)))
      (bandWord b)).Running := running_of_record_ok hrun rfl
    have hchid := exec_chid_freq hrun' hindex (freq_toNat b hindex)
    rw [ofNat_nStart_add_channelIndex hn] at hchid
    exact ⟨_, _, _, exec_cfreq_in hrun hn, exec_chfreq_in hrun hn, rfl, hchid, rfl⟩
  · obtain ⟨m, rfl, hnum⟩ := exec_chinit_chan hrun hmu ht hc
    rw [← hnum]
    exact built_durations_sum m k slot
  · obtain ⟨hfr, hsl, hss, hoff⟩ := timeCoordinate_toNat t.toNat c.mu
    have hexec (x : TimeSel) := exec_tloc_init hrun hc x t
    refine ⟨_, _, _, _, hexec .frame, hexec .slot, hexec .subslot, hexec .offset, ?_⟩
    rw [hfr hframe, hsl, hss, hoff]
    exact ⟨(tickOf_coordinates t.toNat (duration_dvd_slotTicks c.mu)).symm, coordinates_lt t.toNat c.mu⟩

/-! ### A band without a channel list, and an unsupported band (R243, R255, R305) -/

theorem withSubslot_none (b : Band) (n : Word) (slot subslot : Byte) (s : State) (f : Band → ChanTable → Nat → Done)
    (h : s.chan.get b = none) : withSubslot (bandWord b) n slot subslot s f = .raised s .notInitialized :=
  withChanTable_none b s _ h

theorem withSubslot_unsupported (band n : Word) (slot subslot : Byte) (s : State) (f : Band → ChanTable → Nat → Done)
    (h : Unsupported band) : withSubslot band n slot subslot s f = .raised s .notInitialized :=
  withChanTable_unsupported band s _ h

/-- A fault of the checks that `SSGET` and `SSSET` share is the answer of both, since it comes before what they do. -/
theorem exec_subslot_raised {s : State} (hrun : s.Running) {band n : Word} {slot subslot : Byte} {code : FaultCode}
    (hraised : ∀ f, withSubslot band n slot subslot s f = .raised s code) (x : SubslotSel) (status : BitVec 2)
    (rssi : BitVec 16) :
    exec (.ssget band n slot subslot x) s = .next (s.answered code 0#32 0#32)
    ∧ exec (.ssset band n slot subslot status rssi) s = .next (s.answered code 0#32 0#32) := by
  rw [exec_ssget, execSsget, exec_ssset, execSsset]
  exact ⟨command_raised hrun (hraised _), command_raised hrun (hraised _)⟩

/-- Settles O43: the channel list first, then the channel, the slot and the subslot. -/
theorem subslotChecksInOrder : Obligations.SubslotChecksInOrder := fun s b n slot subslot x code rssi hrun =>
  ⟨fun hnone => exec_subslot_raised hrun (fun f => withSubslot_none b n slot subslot s f hnone) x code rssi,
    fun c hc hbad => exec_subslot_raised hrun (fun f => withSubslot_bad b n slot subslot s c f hc hbad) x code rssi⟩

/-- Settles O34: the parameters are looked up before any other operand is read; where only the channel list is asked for,
there is none. -/
theorem unsupportedBandIsFatalWhereLookedUp : Obligations.UnsupportedBandIsFatalWhereLookedUp := by
  intro s band n p slot subslot x c q y hrun hband
  obtain ⟨hssget, hssset⟩ :=
    exec_subslot_raised hrun (fun f => withSubslot_unsupported band n slot subslot s f hband) x c q
  refine ⟨exec_cfreq_unsupported hrun hband, exec_bin_unsupported hrun hband, ?_, ?_, ?_,
    exec_chvalid_unsupported hrun hband, hssget, hssset, ?_⟩
  · rw [exec_pwadd]
    exact command_raised hrun (updatePower_unsupported band n p _ s hband)
  · rw [exec_pwsub]
    exact command_raised hrun (updatePower_unsupported band n p _ s hband)
  · rw [exec_rssi, execRssi]
    exact command_raised hrun (withBandParams_unsupported band s _ hband)
  · rw [exec_tloc, execTloc]
    exact command_raised hrun (withChanTable_unsupported band s _ hband)

/-! ### What can halt the block (R243, R303) -/

/-- The instructions that look up the parameters of a band, with their band operand (R243). -/
inductive LooksUpBand : Instr → Word → Prop where
  | chinit (band mu : Word) : LooksUpBand (.chinit band mu) band
  | bandparm (band : Word) (x : BandSel) : LooksUpBand (.bandparm band x) band
  | cfreq (band n : Word) : LooksUpBand (.cfreq band n) band
  | bin (band n : Word) : LooksUpBand (.bin band n) band
  | pwadd (band n : Word) (p : DWord) : LooksUpBand (.pwadd band n p) band
  | pwsub (band n : Word) (p : DWord) : LooksUpBand (.pwsub band n p) band
  | rssi (band n : Word) : LooksUpBand (.rssi band n) band

/-- A command body ends without FatalConfiguration. -/
def Done.NotFatal : Done → Prop
  | .ret _ _ _ => True
  | .raised _ c => c ≠ .fatalConfiguration

/-! The shared operations end so where what follows them does -/

section
variable {s : State}

theorem ret_notFatal {u : State} {r0 r1 : Word} : (Done.ret u r0 r1).NotFatal := trivial

theorem raised_notFatal {c : FaultCode} (hc : c ≠ .fatalConfiguration) : (Done.raised s c).NotFatal := hc

theorem ite_notFatal {c : Prop} {_ : Decidable c} {yes no : Done} (hyes : yes.NotFatal) (hno : no.NotFatal) :
    (if c then yes else no).NotFatal := by
  split
  · exact hyes
  · exact hno

/-- A check that raises another fault, before the rest of a body. -/
theorem guard_notFatal {p : Prop} {_ : Decidable p} {c : FaultCode} {rest : Done} (hc : c ≠ .fatalConfiguration)
    (hrest : rest.NotFatal) : (if p then .raised s c else rest).NotFatal := ite_notFatal hc hrest

theorem withBandParams_notFatal {b : Band} {f : Band → BandParams → Done}
    (hf : (f b (Config.bandTable b)).NotFatal) : (withBandParams (bandWord b) s f).NotFatal := by
  rw [withBandParams_bandWord]
  exact hf

theorem withChannel_notFatal {p : BandParams} {n : Word} {f : Nat → Done} (hf : ∀ k, (f k).NotFatal) :
    (withChannel p n s f).NotFatal := ite_notFatal (hf _) (raised_notFatal (by decide))

theorem withChanTable_notFatal {band : Word} {f : Band → ChanTable → Done} (hf : ∀ b t, (f b t).NotFatal) :
    (withChanTable band s f).NotFatal := by
  rcases band_cases band with ⟨b, rfl⟩ | hband
  · cases ht : s.chan.get b with
    | none =>
      rw [withChanTable_none b s f ht]
      exact raised_notFatal (by decide)
    | some t =>
      rw [withChanTable_init b s t f ht]
      exact hf b t
  · rw [withChanTable_unsupported band s f hband]
    exact raised_notFatal (by decide)

theorem withSubslot_notFatal {band n : Word} {slot subslot : Byte} {f : Band → ChanTable → Nat → Done}
    (hf : ∀ b t k, (f b t k).NotFatal) : (withSubslot band n slot subslot s f).NotFatal :=
  withChanTable_notFatal fun b t => withChannel_notFatal fun k =>
    guard_notFatal (by decide) (guard_notFatal (by decide) (hf b t k))

theorem finishLoad_notFatal {n : Nat} {B : Banks} : (finishLoad n B s).NotFatal :=
  guard_notFatal (by decide) ret_notFatal

theorem loadFromBuffer_notFatal (b : Bank) : (loadFromBuffer b s).NotFatal :=
  guard_notFatal (by decide) finishLoad_notFatal

theorem storeToBuffer_notFatal (b : Bank) : (storeToBuffer b s).NotFatal :=
  guard_notFatal (by decide) (guard_notFatal (by decide) ret_notFatal)

theorem updatePower_notFatal {b : Band} {n : Word} {p : DWord} {f : Int → Int → Int} :
    (updatePower (bandWord b) n p f s).NotFatal :=
  withBandParams_notFatal <| withChannel_notFatal fun _ =>
    guard_notFatal (by decide) (guard_notFatal (by decide) ret_notFatal)

end

/-- An instruction that runs under the frame of R110, with a body that never ends with FatalConfiguration. -/
def NeverFatal (i : Instr) : Prop := ∃ body : State → Done, exec i = command body ∧ ∀ s, (body s).NotFatal

theorem chvalid_neverFatal (band : Word) : NeverFatal (.chvalid band) := by
  refine ⟨_, rfl, fun s => ?_⟩
  cases bandOf band with
  | none => exact ret_notFatal
  | some b =>
    dsimp only
    cases s.chan.get b with
    | none | some => exact ret_notFatal

theorem chfreq_neverFatal (n : Word) : NeverFatal (.chfreq n) := by
  refine ⟨_, rfl, fun s => ?_⟩
  cases bandOfChannel n.toNat bandsAscending with
  | none => exact raised_notFatal (by decide)
  | some => exact ret_notFatal

theorem chid_neverFatal (f : Word) : NeverFatal (.chid f) := by
  refine ⟨_, rfl, fun s => ?_⟩
  cases channelOfFreq f.toNat bandsAscending with
  | none => exact raised_notFatal (by decide)
  | some => exact ret_notFatal

theorem rssi_neverFatal (b : Band) (n : Word) : NeverFatal (.rssi (bandWord b) n) := by
  refine ⟨_, rfl, fun s => withBandParams_notFatal <| withChannel_notFatal fun k => ?_⟩
  cases s.spec.get b with
  | none | some => exact ret_notFatal

theorem ssset_neverFatal (band n : Word) (slot subslot : Byte) (status : BitVec 2) (rssi : BitVec 16) :
    NeverFatal (.ssset band n slot subslot status rssi) := by
  refine ⟨_, rfl, fun s => withSubslot_notFatal fun b t k => ?_⟩
  cases slotStatusOf status with
  | none => exact raised_notFatal (by decide)
  | some => exact ret_notFatal

/-- Where every band whose parameters are looked up is supported, no instruction ends with FatalConfiguration. -/
theorem exec_neverFatal {i : Instr} (hi : i ≠ .stget) (hband : ∀ band, LooksUpBand i band → ∃ b, band = bandWord b) :
    NeverFatal i := by
  cases i with
  | stget => exact absurd rfl hi
  | nop | rst | get | size | tell | w2dbm | stclr => exact ⟨_, rfl, fun _ => ret_notFatal⟩
  | set => exact ⟨_, rfl, fun _ => ite_notFatal ret_notFatal (raised_notFatal (by decide))⟩
  | ser b => exact ⟨_, rfl, fun _ => storeToBuffer_notFatal b⟩
  | des b => exact ⟨_, rfl, fun _ => loadFromBuffer_notFatal b⟩
  | disp =>
    exact ⟨_, rfl, fun _ => ite_notFatal ret_notFatal (ite_notFatal ret_notFatal (raised_notFatal (by decide)))⟩
  | seek | bufrd => exact ⟨_, rfl, fun _ => guard_notFatal (by decide) ret_notFatal⟩
  | bufwr => exact ⟨_, rfl, fun _ => guard_notFatal (by decide) (guard_notFatal (by decide) ret_notFatal)⟩
  | chinit band mu =>
    obtain ⟨b, rfl⟩ := hband band (.chinit band mu)
    exact ⟨_, rfl, fun _ => withBandParams_notFatal ret_notFatal⟩
  | chvalid band => exact chvalid_neverFatal band
  | bandparm band x =>
    obtain ⟨b, rfl⟩ := hband band (.bandparm band x)
    exact ⟨_, rfl, fun _ => withBandParams_notFatal ret_notFatal⟩
  | cfreq band n =>
    obtain ⟨b, rfl⟩ := hband band (.cfreq band n)
    exact ⟨_, rfl, fun _ => withBandParams_notFatal <| withChannel_notFatal fun _ => ret_notFatal⟩
  | chfreq n => exact chfreq_neverFatal n
  | chid f => exact chid_neverFatal f
  | bin band n =>
    obtain ⟨b, rfl⟩ := hband band (.bin band n)
    exact ⟨_, rfl, fun _ => withBandParams_notFatal <| withChannel_notFatal fun _ => ret_notFatal⟩
  | ssget => exact ⟨_, rfl, fun _ => withSubslot_notFatal fun _ _ _ => ret_notFatal⟩
  | ssset band n slot subslot status rssi => exact ssset_neverFatal band n slot subslot status rssi
  | tloc => exact ⟨_, rfl, fun _ => withChanTable_notFatal fun _ _ => ret_notFatal⟩
  | pwadd band n p =>
    obtain ⟨b, rfl⟩ := hband band (.pwadd band n p)
    exact ⟨_, rfl, fun _ => updatePower_notFatal⟩
  | pwsub band n p =>
    obtain ⟨b, rfl⟩ := hband band (.pwsub band n p)
    exact ⟨_, rfl, fun _ => updatePower_notFatal⟩
  | rssi band n =>
    obtain ⟨b, rfl⟩ := hband band (.rssi band n)
    exact rssi_neverFatal b n
  | mht | bh | uh | muxForm0 | muxForm1 | muxForm2 | muxForm3 | nb | cb | areq | arspReject | arspAccept | rar | rdc
  | aci => exact ⟨_, rfl, fun _ => finishLoad_notFatal⟩

/-- An instruction that halts a running block has answered FatalConfiguration (R310). -/
theorem lastFault_of_halts {i : Instr} {s t : State} (hrun : s.Running) (hexec : exec i s = .next t)
    (hfatal : t.status.fatal = true) : t.status.lastFault = .fatalConfiguration := by
  have hs : s.status.fatal = false := hrun
  rcases exec_cases hexec with ⟨a, rfl⟩ | ⟨u, c, r0, r1, hchange, -, rfl⟩
  · rw [respond_status, hs] at hfatal
    cases hfatal
  · rw [answered_status, record_fatal, hchange.fatal_inbox_epoch_eq.1, hs, Bool.false_or, decide_eq_true_iff] at hfatal
    rw [answered_status, record_lastFault, hfatal]

theorem lastFault_of_neverFatal {i : Instr} (hi : NeverFatal i) {s t : State} (hexec : exec i s = .next t) :
    t.status.lastFault ≠ .fatalConfiguration := by
  obtain ⟨body, hbody, hnot⟩ := hi
  rw [hbody] at hexec
  rcases command_cases hexec with ⟨-, rfl⟩ | ⟨-, u, r0, r1, -, rfl⟩ | ⟨-, u, c, hb, rfl⟩
  · rw [answered_status, record_lastFault]
    decide
  · rw [answered_status, record_lastFault]
    decide
  · rw [answered_status, record_lastFault]
    have hc := hnot s
    rw [hb] at hc
    exact hc

/-- Settles O11: with supported bands only, no answer is the one that halts. -/
theorem onlyUnsupportedBandHalts : Obligations.OnlyUnsupportedBandHalts := by
  intro i s t hrun hexec hfatal
  have hcode := lastFault_of_halts hrun hexec hfatal
  have hstget : i ≠ .stget := by
    rintro rfl
    cases hexec
    exact absurd (hrun.symm.trans hfatal) (by decide)
  obtain ⟨band, hlook, hband⟩ : ∃ band, LooksUpBand i band ∧ Unsupported band := by
    by_contra hnone
    have hsupported (band : Word) (hlook : LooksUpBand i band) : ∃ b, band = bandWord b :=
      (band_cases band).resolve_right fun hband => hnone ⟨band, hlook, hband⟩
    exact lastFault_of_neverFatal (exec_neverFatal hstget hsupported) hexec hcode
  refine ⟨band, hband, ?_⟩
  cases hlook with
  | chinit | bandparm | cfreq | bin | pwadd | pwsub | rssi => simp

end Sys2Proof.Machine

/-! PROOFS for the family 46_spectrum_power.md. The level of a power is known by the two inequalities of R285, from which its
range and its growth follow. What a power update can do is said once (`exec_powerUpdate_cases`); one that succeeds adds an
amount that depends on its operands alone (`powerShift`), so updates commute and `PWSUB` undoes `PWADD` (R288). -/

namespace Sys2Proof.Machine

/-! ### The level of a power (R285) -/

theorem w2dbm_of_nonpos {p : Int} (hp : p ≤ 0) : w2dbm p = -150 := if_pos hp

/-- The search of `w2dbm` starts high enough for every 64-bit power. -/
theorem pow_ten_lt_of_lt_two_pow_63 {x : Nat} (hx : x < 2 ^ 63) : x ^ 10 < 10 ^ 190 :=
  calc x ^ 10 < (2 ^ 63) ^ 10 := Nat.pow_lt_pow_left hx (by decide)
    _ < 10 ^ 190 := by norm_num

theorem w2dbm_of_pos {p : Int} (hpos : 0 < p) (hp : p < 2 ^ 63) :
    ∃ e : Nat, w2dbm p = e - 150 ∧ 10 ^ e ≤ p.toNat ^ 10 ∧ p.toNat ^ 10 < 10 ^ (e + 1) := by
  refine ⟨largestPowerOfTen (p.toNat ^ 10) 190, if_neg (by omega), ?_⟩
  have hlt : p.toNat ^ 10 < 10 ^ 190 := pow_ten_lt_of_lt_two_pow_63 (by omega)
  exact largestPowerOfTen_spec _ (Nat.pow_pos (by omega)) 190 (hlt.trans (Nat.pow_lt_pow_right (by decide) (by decide)))

theorem floor_le_w2dbm {p : Int} (hp : p < 2 ^ 63) : -150 ≤ w2dbm p := by
  rcases lt_or_ge 0 p with hpos | hnonpos
  · obtain ⟨e, hlevel, -⟩ := w2dbm_of_pos hpos hp
    omega
  · exact (w2dbm_of_nonpos hnonpos).ge

theorem w2dbm_le {p : Int} (hp : p < 2 ^ 63) : w2dbm p ≤ 39 := by
  rcases lt_or_ge 0 p with hpos | hnonpos
  · obtain ⟨e, hlevel, hlow, -⟩ := w2dbm_of_pos hpos hp
    have he : e < 190 :=
      (Nat.pow_lt_pow_iff_right (by decide)).1 (hlow.trans_lt (pow_ten_lt_of_lt_two_pow_63 (by omega)))
    omega
  · rw [w2dbm_of_nonpos hnonpos]
    decide

/-- The level does not fall as the power grows (R288 (a)). -/
theorem w2dbm_mono {p q : Int} (hpq : p ≤ q) (hq : q < 2 ^ 63) : w2dbm p ≤ w2dbm q := by
  rcases lt_or_ge 0 p with hpos | hnonpos
  · obtain ⟨e, hlevel, hlow, -⟩ := w2dbm_of_pos hpos (by omega)
    obtain ⟨e', hlevel', -, hhigh⟩ := w2dbm_of_pos (p := q) (by omega) hq
    have hlt : 10 ^ e < 10 ^ (e' + 1) :=
      calc 10 ^ e ≤ p.toNat ^ 10 := hlow
        _ ≤ q.toNat ^ 10 := Nat.pow_le_pow_left (Int.toNat_le_toNat hpq) 10
        _ < 10 ^ (e' + 1) := hhigh
    have he : e < e' + 1 := (Nat.pow_lt_pow_iff_right (by decide)).1 hlt
    omega
  · rw [w2dbm_of_nonpos hnonpos]
    exact floor_le_w2dbm hq

/-! ### `W2DBM` and `RSSI` (R286, R287) -/

theorem exec_w2dbm (p : DWord) (s : State) : exec (.w2dbm p) s = execW2dbm p s := rfl

section
variable {s : State} (hrun : s.Running) {b : Band} {n band : Word}
include hrun

theorem exec_w2dbm_ok (p : DWord) :
    exec (.w2dbm p) s = .next (s.answered .ok (BitVec.ofInt 32 (w2dbm p.toInt)) 0#32) := by
  rw [exec_w2dbm, execW2dbm]
  exact command_ret hrun rfl

theorem exec_rssi_model {m : SpecModel} (hn : InBand b n) (hm : s.spec.get b = some m) :
    exec (.rssi (bandWord b) n) s =
      .next (s.answered .ok (BitVec.ofInt 32 (w2dbm (m.acc (channelIndex b n)).toInt)) 0#32) := by
  rw [exec_rssi, execRssi]
  refine command_ret hrun ?_
  simp only [withBandParams_bandWord, withChannel_in b n s _ hn, hm, dbmWord]

theorem exec_rssi_noModel (hn : InBand b n) (hm : s.spec.get b = none) :
    exec (.rssi (bandWord b) n) s = .next (s.answered .ok (BitVec.ofInt 32 (-150)) 0#32) := by
  rw [exec_rssi, execRssi]
  refine command_ret hrun ?_
  simp only [withBandParams_bandWord, withChannel_in b n s _ hn, hm]
  rfl

theorem exec_rssi_out (hn : ¬ InBand b n) :
    exec (.rssi (bandWord b) n) s = .next (s.answered .invalidArgument 0#32 0#32) := by
  rw [exec_rssi, execRssi]
  refine command_raised hrun ?_
  rw [withBandParams_bandWord, withChannel_out b n s _ hn]

theorem exec_rssi_unsupported (hband : Unsupported band) :
    exec (.rssi band n) s = .next (s.answered .fatalConfiguration 0#32 0#32) := by
  rw [exec_rssi, execRssi]
  exact command_raised hrun (withBandParams_unsupported band s _ hband)

end

/-- Settles O49: the level is the one of the two inequalities, and a 64-bit power keeps it in its range. -/
theorem w2dbmRoundsDown : Obligations.W2dbmRoundsDown := by
  refine ⟨fun a0 a1 a2 a3 => decodeRecord_packRecord 0x23#8 a0 a1 a2 a3, fun s p hrun => ?_⟩
  have hp : p.toInt < 2 ^ 63 := BitVec.toInt_lt
  exact ⟨w2dbm p.toInt, exec_w2dbm_ok hrun p, w2dbm_of_nonpos, fun hpos => w2dbm_of_pos hpos hp, floor_le_w2dbm hp,
    w2dbm_le hp⟩

/-- Settles O50: the band is looked up first, then the channel, then the model. -/
theorem rssiAnswersLevel : Obligations.RssiAnswersLevel :=
  ⟨fun band n a2 a3 => decodeRecord_packRecord 0x22#8 band n a2 a3,
    fun _ _ _ hrun hband => exec_rssi_unsupported hrun hband,
    fun _ _ _ hrun => ⟨exec_rssi_noModel hrun, fun _ hn hm => exec_rssi_model hrun hn hm, exec_rssi_out hrun⟩⟩

/-! ### Refused power updates (R282 to R284, R308) -/

/-- Settles O48: the channel and the power are checked before the result, and nothing is written before all three. -/
theorem powerUpdateRefusals : Obligations.PowerUpdateRefusals := by
  intro s b n p hrun
  have hinvalid (hbad : ¬ InBand b n ∨ 2 ^ 63 ≤ p.toNat) (f : Int → Int → Int) :
      command (updatePower (bandWord b) n p f) s = .next (s.answered .invalidArgument 0#32 0#32) :=
    command_raised hrun (hbad.elim (updatePower_channel b n p f s) (updatePower_power b n p f s))
  refine ⟨fun hbad => ⟨hinvalid hbad _, hinvalid hbad _⟩, fun hn hp hover => ?_, fun hn hp hunder => ?_⟩
  · exact command_raised hrun (updatePower_overflow b n p _ s hn hp (.inr (by omega)))
  · exact command_raised hrun (updatePower_overflow b n p _ s hn hp (.inl hunder))

/-! ### An accumulator after a write -/

/-- The model of a band, where there is one, is in canonical form (R44). -/
def State.CanonicalSpec (s : State) (b : Band) : Prop :=
  ∀ m, s.spec.get b = some m → m.WellFormed (Config.bandTable b)

section
variable {s : State} {b : Band}

/-- The model a power update writes to, be it new or not, is in canonical form (R281). -/
theorem State.CanonicalSpec.getD_created (h : s.CanonicalSpec b) :
    ((s.spec.get b).getD SpecModel.created).WellFormed (Config.bandTable b) := by
  cases hm : s.spec.get b with
  | none => exact created_wellFormed _
  | some m => exact h m hm

theorem storeAccumulator_canonicalSpec {k : Nat} {a : Int} (hk : k ≤ (Config.bandTable b).lastIndex) {d : Band}
    (hd : s.CanonicalSpec d) : (storeAccumulator s b k a).CanonicalSpec d := by
  intro m hm
  rw [storeAccumulator, perBand_get_set] at hm
  split at hm
  · subst d
    cases hm
    exact setAcc_wellFormed _ _ _ _ hd.getD_created hk
  · exact hd m hm

theorem accumulator_storeAccumulator {k : Nat} {a : Int} (hb : s.CanonicalSpec b) (hr : -(2 ^ 63) ≤ a ∧ a ≤ 2 ^ 63 - 1)
    (d : Band) (k' : Nat) :
    accumulator (storeAccumulator s b k a) d k' = if d = b ∧ k' = k then a else accumulator s d k' := by
  rw [accumulator_eq, storeAccumulator, perBand_get_set]
  by_cases hd : d = b
  · subst d
    have ha : (BitVec.ofInt 64 a).toInt = a := BitVec.toInt_ofInt_eq_self (by decide) (by omega) (by omega)
    simp only [if_true, Option.getD_some, true_and, acc_setAcc _ _ _ _ (specModel_rise _ _ hb.getD_created),
      apply_ite BitVec.toInt, ha, accumulator_eq s b k']
  · rw [if_neg hd, if_neg fun h => hd h.1, accumulator_eq]

end

/-! ### What a power update can do (R282, R283) -/

/-- What a power update that succeeds adds to an accumulator. -/
def powerShift : Instr → Band → Nat → Int
  | .pwadd band n p, d, k => if band = bandWord d ∧ k = channelIndex d n then p.toNat else 0
  | .pwsub band n p, d, k => if band = bandWord d ∧ k = channelIndex d n then -p.toNat else 0
  | _, _, _ => 0

theorem bandWord_inj {b d : Band} : bandWord b = bandWord d ↔ d = b := by
  cases b <;> cases d <;> decide

/-- A power update ends with a fault, and nothing is written, or with the exact result in the one accumulator. -/
theorem updatePower_cases (band n : Word) (p : DWord) (f : Int → Int → Int) (s : State) :
    (∃ c, c ≠ .ok ∧ updatePower band n p f s = .raised s c)
    ∨ ∃ b a r0 r1, band = bandWord b ∧ InBand b n ∧ a = f (accumulator s b (channelIndex b n)) p.toNat
      ∧ (-(2 ^ 63) ≤ a ∧ a ≤ 2 ^ 63 - 1)
      ∧ updatePower band n p f s = .ret (storeAccumulator s b (channelIndex b n) a) r0 r1 := by
  rcases band_cases band with ⟨b, rfl⟩ | hband
  case inr => exact .inl ⟨_, by decide, updatePower_unsupported band n p f s hband⟩
  by_cases hn : InBand b n
  case neg => exact .inl ⟨_, by decide, updatePower_channel b n p f s hn⟩
  rcases Nat.lt_or_ge p.toNat (2 ^ 63) with hp | hp
  case inr => exact .inl ⟨_, by decide, updatePower_power b n p f s hp⟩
  by_cases hr : -(2 ^ 63) ≤ f (accumulator s b (channelIndex b n)) p.toNat
      ∧ f (accumulator s b (channelIndex b n)) p.toNat ≤ 2 ^ 63 - 1
  · exact .inr ⟨b, _, _, _, rfl, hn, rfl, hr, updatePower_ok b n p f s _ hn hp rfl hr⟩
  · exact .inl ⟨_, by decide, updatePower_overflow b n p f s hn hp (by omega)⟩

section
variable {s t : State} {i : Instr} {band n : Word} {p : DWord} (hi : i = .pwadd band n p ∨ i = .pwsub band n p)
  (hrun : s.Running) (hexec : exec i s = .next t)
include hi hrun hexec

/-- `PWADD` and `PWSUB` on a running block, as additions of `powerShift`. -/
theorem exec_powerUpdate_cases :
    (∃ c, c ≠ .ok ∧ t = s.answered c 0#32 0#32)
    ∨ ∃ b a r0 r1, band = bandWord b ∧ InBand b n
      ∧ a = accumulator s b (channelIndex b n) + powerShift i b (channelIndex b n)
      ∧ (-(2 ^ 63) ≤ a ∧ a ≤ 2 ^ 63 - 1)
      ∧ t = (storeAccumulator s b (channelIndex b n) a).answered .ok r0 r1 := by
  obtain ⟨f, hcommand, hshift⟩ : ∃ f : Int → Int → Int, exec i s = command (updatePower band n p f) s
      ∧ ∀ b x, band = bandWord b → f x p.toNat = x + powerShift i b (channelIndex b n) := by
    rcases hi with rfl | rfl
    · exact ⟨_, exec_pwadd band n p s, fun b x hb => by simp [powerShift, hb]⟩
    · exact ⟨_, exec_pwsub band n p s, fun b x hb => by simp [powerShift, hb, Int.sub_eq_add_neg]⟩
  rw [hcommand] at hexec
  rcases updatePower_cases band n p f s with ⟨c, hc, hbody⟩ | ⟨b, a, r0, r1, hb, hn, ha, hr, hbody⟩
  · rw [command_raised hrun hbody] at hexec
    cases hexec
    exact .inl ⟨c, hc, rfl⟩
  · rw [command_ret hrun hbody] at hexec
    cases hexec
    exact .inr ⟨b, a, r0, r1, hb, hn, ha.trans (hshift b _ hb), hr, rfl⟩

/-- A power update that succeeds leaves the block running and the models canonical, and adds its shift to every
accumulator. -/
theorem accumulator_of_powerUpdate (hcanonical : ∀ b, band = bandWord b → s.CanonicalSpec b)
    (hok : t.status.lastFault = .ok) :
    t.Running ∧ (∀ d, s.CanonicalSpec d → t.CanonicalSpec d)
      ∧ ∀ d k, accumulator t d k = accumulator s d k + powerShift i d k := by
  rcases exec_powerUpdate_cases hi hrun hexec with ⟨c, hc, rfl⟩ | ⟨b, a, r0, r1, hband, hn, ha, hr, rfl⟩
  · exact absurd hok hc
  refine ⟨running_of_record_ok hrun rfl, fun d hd => storeAccumulator_canonicalSpec (channelIndex_le b n hn) hd,
    fun d k => ?_⟩
  have hstored : accumulator ((storeAccumulator s b (channelIndex b n) a).answered .ok r0 r1) d k = _ :=
    accumulator_storeAccumulator (hcanonical b hband) hr d k
  rw [hstored]
  split
  case isTrue hhere =>
    obtain ⟨rfl, rfl⟩ := hhere
    exact ha
  case isFalse helsewhere =>
    have hzero : powerShift i d k = 0 := by
      have hnot : ¬ (band = bandWord d ∧ k = channelIndex d n) := by
        rintro ⟨hd, hk⟩
        obtain rfl : d = b := bandWord_inj.1 (hband.symm.trans hd)
        exact helsewhere ⟨rfl, hk⟩
      rcases hi with rfl | rfl <;> exact if_neg hnot
    rw [hzero, Int.add_zero]

/-- A power update, be it refused or not, leaves the accumulators of other channels and bands alone (R288 (c)). -/
theorem accumulator_of_powerUpdate_of_ne {b : Band} (hband : band = bandWord b) (hcanonical : s.CanonicalSpec b)
    {d : Band} {k : Nat} (hne : d ≠ b ∨ k ≠ channelIndex b n) : accumulator t d k = accumulator s d k := by
  rcases exec_powerUpdate_cases hi hrun hexec with ⟨c, -, rfl⟩ | ⟨b', a, r0, r1, hband', -, -, hr, rfl⟩
  · rfl
  · obtain rfl : b' = b := bandWord_inj.1 (hband.symm.trans hband')
    refine (accumulator_storeAccumulator hcanonical hr d k).trans (if_neg ?_)
    rintro ⟨hd, hk⟩
    exact hne.elim (absurd hd) (absurd hk)

end

/-! ### The laws (R288) -/

/-- `PWSUB` takes away what `PWADD` adds. -/
theorem powerShift_pwadd_add_pwsub (band n : Word) (p : DWord) (d : Band) (k : Nat) :
    powerShift (.pwadd band n p) d k + powerShift (.pwsub band n p) d k = 0 := by
  simp only [powerShift]
  split
  · exact Int.add_right_neg _
  · rfl

/-- Settles O51: updates that succeed add amounts of their operands alone, and amounts commute and cancel. -/
theorem spectrumLaws : Obligations.SpectrumLaws := by
  refine ⟨fun p q _ hq hpq => ⟨floor_le_w2dbm (by omega), w2dbm_mono hpq hq⟩, ?_, ?_, ?_, ?_⟩
  · intro s t u b n p hrun hwf ht htok hu huok d k
    have hs (b' : Band) (hb : bandWord b = bandWord b') : s.CanonicalSpec b' := bandWord_inj.1 hb ▸ hwf
    obtain ⟨htrun, hkeep, hadd⟩ := accumulator_of_powerUpdate (.inl rfl) hrun ht hs htok
    obtain ⟨-, -, hsub⟩ := accumulator_of_powerUpdate (.inr rfl) htrun hu (fun b' hb => hkeep b' (hs b' hb)) huok
    have hcancel := powerShift_pwadd_add_pwsub (bandWord b) n p d k
    rw [hsub, hadd]
    omega
  · rintro s t u t' u' i j hrun hwf ⟨_, _, _, hi⟩ ⟨_, _, _, hj⟩ ht htok hu huok ht' htok' hu' huok' d k
    obtain ⟨htrun, hkeep, hfirst⟩ := accumulator_of_powerUpdate hi hrun ht (fun b _ => hwf b) htok
    obtain ⟨-, -, hsecond⟩ := accumulator_of_powerUpdate hj htrun hu (fun b _ => hkeep b (hwf b)) huok
    obtain ⟨htrun', hkeep', hfirst'⟩ := accumulator_of_powerUpdate hj hrun ht' (fun b _ => hwf b) htok'
    obtain ⟨-, -, hsecond'⟩ := accumulator_of_powerUpdate hi htrun' hu' (fun b _ => hkeep' b (hwf b)) huok'
    rw [hsecond, hfirst, hsecond', hfirst']
    omega
  · rintro s t b n p hrun hwf (hexec | hexec) d k hne
    · exact accumulator_of_powerUpdate_of_ne (.inl rfl) hrun hexec rfl hwf hne
    · exact accumulator_of_powerUpdate_of_ne (.inr rfl) hrun hexec rfl hwf hne
  · intro s b n m hrun hn hm
    rw [exec_rssi_model hrun hn hm, exec_w2dbm_ok hrun]

end Sys2Proof.Machine

/-! PROOFS for the family 60_exceptions.md. Every check of the block raises its fault in the state the command began in, before
anything is written (R310); the one write before a check is the `WARN` of `CHINIT` (R303). So the body of every other command
raises its faults only there (`RaisesUnchanged`), and what a refused command leaves is its answer on the state it found.
`FATAL` is never cleared by a command, and a halted block answers in the same way whatever the record (R307, R311). -/

namespace Sys2Proof.Machine

/-! ### The answers of a refused command (R83, R310) -/

/-- The response that was added says with which code and values the command was answered. -/
theorem response_of_answered {s u : State} {a : Response} {c : FaultCode} {r0 r1 : Word}
    (h : (u.answered c r0 r1).responses = s.responses ++ [a]) : a = ⟨c, r0, r1⟩ := by
  have hlast : [⟨c, r0, r1⟩] = [a] := List.append_inj_right' h rfl
  exact (List.singleton_inj.1 hlast).symm

/-- Halted sets `LAST_FAULT` and `FAULT_SEEN` only, since the block is halted already (R307, R310). -/
theorem answered_halted_eq (s : State) (r0 r1 : Word) :
    s.answered .halted r0 r1 = { s with
      status := { s.status with lastFault := .halted, faultSeen := true }
      responses := s.responses ++ [⟨.halted, r0, r1⟩] } := by
  simp [State.answered]

/-! ### Command bodies that raise before they write -/

/-- A command body that began in `s` raises a fault only in that state: nothing was written before. -/
def Done.RaisesIn (s : State) : Done → Prop
  | .ret _ _ _ => True
  | .raised u _ => u = s

section
variable {s : State}

theorem ret_raisesIn {u : State} {r0 r1 : Word} : (Done.ret u r0 r1).RaisesIn s := trivial

theorem raised_raisesIn {c : FaultCode} : (Done.raised s c).RaisesIn s := rfl

theorem ite_raisesIn {p : Prop} {_ : Decidable p} {yes no : Done} (hyes : yes.RaisesIn s) (hno : no.RaisesIn s) :
    (if p then yes else no).RaisesIn s := by
  split
  · exact hyes
  · exact hno

/-- A check, before the rest of a body. -/
theorem guard_raisesIn {p : Prop} {_ : Decidable p} {c : FaultCode} {rest : Done} (hrest : rest.RaisesIn s) :
    (if p then .raised s c else rest).RaisesIn s := ite_raisesIn raised_raisesIn hrest

/-! The shared operations raise where they began, if what follows them does -/

theorem withBandParams_raisesIn {band : Word} {f : Band → BandParams → Done} (hf : ∀ b p, (f b p).RaisesIn s) :
    (withBandParams band s f).RaisesIn s := by
  rcases band_cases band with ⟨b, rfl⟩ | hband
  · rw [withBandParams_bandWord]
    exact hf b _
  · rw [withBandParams_unsupported band s f hband]
    exact raised_raisesIn

theorem withChannel_raisesIn {p : BandParams} {n : Word} {f : Nat → Done} (hf : ∀ k, (f k).RaisesIn s) :
    (withChannel p n s f).RaisesIn s := ite_raisesIn (hf _) raised_raisesIn

theorem withChanTable_raisesIn {band : Word} {f : Band → ChanTable → Done} (hf : ∀ b t, (f b t).RaisesIn s) :
    (withChanTable band s f).RaisesIn s := by
  rcases band_cases band with ⟨b, rfl⟩ | hband
  · cases ht : s.chan.get b with
    | none =>
      rw [withChanTable_none b s f ht]
      exact raised_raisesIn
    | some t =>
      rw [withChanTable_init b s t f ht]
      exact hf b t
  · rw [withChanTable_unsupported band s f hband]
    exact raised_raisesIn

theorem withSubslot_raisesIn {band n : Word} {slot subslot : Byte} {f : Band → ChanTable → Nat → Done}
    (hf : ∀ b t k, (f b t k).RaisesIn s) : (withSubslot band n slot subslot s f).RaisesIn s :=
  withChanTable_raisesIn fun b t => withChannel_raisesIn fun k => guard_raisesIn (guard_raisesIn (hf b t k))

theorem finishLoad_raisesIn {n : Nat} {B : Banks} : (finishLoad n B s).RaisesIn s := guard_raisesIn ret_raisesIn

theorem loadFromBuffer_raisesIn (b : Bank) : (loadFromBuffer b s).RaisesIn s := guard_raisesIn finishLoad_raisesIn

theorem storeToBuffer_raisesIn (b : Bank) : (storeToBuffer b s).RaisesIn s :=
  guard_raisesIn (guard_raisesIn ret_raisesIn)

theorem updatePower_raisesIn {band n : Word} {p : DWord} {f : Int → Int → Int} :
    (updatePower band n p f s).RaisesIn s :=
  withBandParams_raisesIn fun _ _ => withChannel_raisesIn fun _ => guard_raisesIn (guard_raisesIn ret_raisesIn)

end

/-- An instruction that runs under the frame of R110, with a body that raises its faults where it began. -/
def RaisesUnchanged (i : Instr) : Prop := ∃ body : State → Done, exec i = command body ∧ ∀ s, (body s).RaisesIn s

/-- `CHVALID` raises no fault (R247). -/
theorem chvalid_raisesUnchanged (band : Word) : RaisesUnchanged (.chvalid band) := by
  refine ⟨_, rfl, fun s => ?_⟩
  cases bandOf band with
  | none => exact ret_raisesIn
  | some b =>
    dsimp only
    cases s.chan.get b with
    | none | some => exact ret_raisesIn

theorem chfreq_raisesUnchanged (n : Word) : RaisesUnchanged (.chfreq n) := by
  refine ⟨_, rfl, fun s => ?_⟩
  cases bandOfChannel n.toNat bandsAscending with
  | none => exact raised_raisesIn
  | some => exact ret_raisesIn

theorem chid_raisesUnchanged (f : Word) : RaisesUnchanged (.chid f) := by
  refine ⟨_, rfl, fun s => ?_⟩
  cases channelOfFreq f.toNat bandsAscending with
  | none => exact raised_raisesIn
  | some => exact ret_raisesIn

theorem rssi_raisesUnchanged (band n : Word) : RaisesUnchanged (.rssi band n) := by
  refine ⟨_, rfl, fun s => withBandParams_raisesIn fun b _ => withChannel_raisesIn fun _ => ?_⟩
  cases s.spec.get b with
  | none | some => exact ret_raisesIn

theorem ssset_raisesUnchanged (band n : Word) (slot subslot : Byte) (status : BitVec 2) (rssi : BitVec 16) :
    RaisesUnchanged (.ssset band n slot subslot status rssi) := by
  refine ⟨_, rfl, fun s => withSubslot_raisesIn fun _ _ _ => ?_⟩
  cases slotStatusOf status with
  | none => exact raised_raisesIn
  | some => exact ret_raisesIn

/-- Every instruction under the frame of R110 but `CHINIT`, which may set `WARN` before its band lookup fails (R303). -/
theorem exec_raisesUnchanged {i : Instr} (hstget : i ≠ .stget) (hchinit : ∀ band mu, i ≠ .chinit band mu) :
    RaisesUnchanged i := by
  cases i with
  | stget => exact absurd rfl hstget
  | chinit band mu => exact absurd rfl (hchinit band mu)
  | nop | rst | get | size | tell | w2dbm | stclr => exact ⟨_, rfl, fun _ => ret_raisesIn⟩
  | set => exact ⟨_, rfl, fun _ => ite_raisesIn ret_raisesIn raised_raisesIn⟩
  | ser b => exact ⟨_, rfl, fun _ => storeToBuffer_raisesIn b⟩
  | des b => exact ⟨_, rfl, fun _ => loadFromBuffer_raisesIn b⟩
  | disp => exact ⟨_, rfl, fun _ => ite_raisesIn ret_raisesIn (ite_raisesIn ret_raisesIn raised_raisesIn)⟩
  | seek | bufrd => exact ⟨_, rfl, fun _ => guard_raisesIn ret_raisesIn⟩
  | bufwr => exact ⟨_, rfl, fun _ => guard_raisesIn (guard_raisesIn ret_raisesIn)⟩
  | chvalid band => exact chvalid_raisesUnchanged band
  | bandparm => exact ⟨_, rfl, fun _ => withBandParams_raisesIn fun _ _ => ret_raisesIn⟩
  | cfreq | bin =>
    exact ⟨_, rfl, fun _ => withBandParams_raisesIn fun _ _ => withChannel_raisesIn fun _ => ret_raisesIn⟩
  | chfreq n => exact chfreq_raisesUnchanged n
  | chid f => exact chid_raisesUnchanged f
  | ssget => exact ⟨_, rfl, fun _ => withSubslot_raisesIn fun _ _ _ => ret_raisesIn⟩
  | ssset band n slot subslot status rssi => exact ssset_raisesUnchanged band n slot subslot status rssi
  | tloc => exact ⟨_, rfl, fun _ => withChanTable_raisesIn fun _ _ => ret_raisesIn⟩
  | pwadd | pwsub => exact ⟨_, rfl, fun _ => updatePower_raisesIn⟩
  | rssi band n => exact rssi_raisesUnchanged band n
  | mht | bh | uh | muxForm0 | muxForm1 | muxForm2 | muxForm3 | nb | cb | areq | arspReject | arspAccept | rar | rdc
  | aci => exact ⟨_, rfl, fun _ => finishLoad_raisesIn⟩

/-! ### What a refused command leaves (R303, R310) -/

section
variable {s t : State} {a : Response}

theorem refused_of_raisesUnchanged {i : Instr} (hi : RaisesUnchanged i) (hexec : exec i s = .next t)
    (ha : t.responses = s.responses ++ [a]) (hfault : a.fault ≠ .ok) : t = s.answered a.fault 0#32 0#32 := by
  obtain ⟨body, hbody, hraises⟩ := hi
  rw [hbody] at hexec
  rcases command_cases hexec with ⟨-, rfl⟩ | ⟨-, u, r0, r1, -, rfl⟩ | ⟨-, u, c, hraised, rfl⟩
  · rw [response_of_answered ha]
  · rw [response_of_answered ha] at hfault
    exact absurd rfl hfault
  · have hu := hraises s
    rw [hraised] at hu
    obtain rfl : u = s := hu
    rw [response_of_answered ha]

/-- A refused `CHINIT` with an illegal scaling factor and an unsupported band has set `WARN`; any other has changed nothing
but its answer (R246, R303). -/
theorem chinit_refused {band mu : Word} (hexec : exec (.chinit band mu) s = .next t)
    (ha : t.responses = s.responses ++ [a]) (hfault : a.fault ≠ .ok) :
    t = s.answered a.fault 0#32 0#32
    ∨ ¬ LegalMu mu ∧ a.fault = .fatalConfiguration
      ∧ t = ({ s with status := s.status.setWarn } : State).answered .fatalConfiguration 0#32 0#32 := by
  cases hfatal : s.status.fatal with
  | true =>
    rw [exec_chinit, execChinit, command_halted _ s hfatal] at hexec
    cases hexec
    rw [response_of_answered ha]
    exact .inl rfl
  | false =>
    rcases band_cases band with ⟨b, rfl⟩ | hband
    · rw [exec_chinit_supported hfatal] at hexec
      cases hexec
      rw [response_of_answered ha] at hfault
      exact absurd rfl hfault
    · rw [exec_chinit_unsupported hfatal hband] at hexec
      cases hexec
      rw [response_of_answered ha]
      rcases muOf_cases mu with ⟨m, hm, -⟩ | ⟨hm, hmu⟩
      · exact .inl (by rw [scaleOrWarn_some mu s hm])
      · exact .inr ⟨hmu, rfl, by rw [scaleOrWarn_none mu s hm]⟩

/-- `STGET` answers with no fault, halted or not (R129). -/
theorem stget_never_refused (hexec : exec .stget s = .next t) (ha : t.responses = s.responses ++ [a]) : a.fault = .ok := by
  cases hexec
  obtain rfl : _ = a := List.singleton_inj.1 (List.append_cancel_left ha)
  rfl

end

/-! ### A halted block (R307, R311) -/

/-- A halted block answers Halted to every record that is not `STGET`'s. -/
theorem runRecord_halted {s : State} (hfatal : s.status.fatal = true) {r : Record} (hr : decodeRecord r ≠ .ok .stget) :
    runRecord r s = .next (s.answered .halted 0#32 0#32) := by
  cases hdecode : decodeRecord r with
  | ok i =>
    have hi : i ≠ .stget := fun h => hr (by rw [hdecode, h])
    obtain ⟨body, hbody⟩ := exec_isCommand i hi
    rw [runRecord_ok hdecode, hbody, command_halted body s hfatal]
  | illegal why =>
    rw [runRecord, hdecode]
    simp only [illegalRecord_eq_answered, hfatal, if_true]

/-- Running a record, `STGET`'s or another, never clears `FATAL`. -/
theorem runRecord_keeps_fatal {s t : State} (hfatal : s.status.fatal = true) {r : Record}
    (hrun : runRecord r s = .next t) : t.status.fatal = true := by
  by_cases hr : decodeRecord r = .ok .stget
  · rw [runRecord_ok hr] at hrun
    cases hrun
    exact hfatal
  · rw [runRecord_halted hfatal hr] at hrun
    cases hrun
    rw [answered_status, record_fatal, hfatal, Bool.true_or]

/-! ### The obligations -/

/-- Settles O3: the step of a block with an empty queue is the first case of its definition. -/
theorem idleStepHoldsState : Obligations.IdleStepHoldsState := by
  intro s hinbox
  rw [step, hinbox]

/-- Settles O8: `STGET` is never refused, `CHINIT` may have set `WARN`, and every other command raises its faults before it
writes. -/
theorem refusedInstructionChangesOnlyStatus : Obligations.RefusedInstructionChangesOnlyStatus := by
  intro i s t a hexec ha hfault
  by_cases hchinit : ∃ band mu, i = .chinit band mu
  · obtain ⟨band, mu, rfl⟩ := hchinit
    rcases chinit_refused hexec ha hfault with ht | ⟨hmu, hcode, ht⟩
    · exact .inl ht
    · exact .inr ⟨band, mu, rfl, hmu, hcode, ht⟩
  · have hstget : i ≠ .stget := by
      rintro rfl
      exact hfault (stget_never_refused hexec ha)
    have hraises := exec_raisesUnchanged hstget fun band mu hi => hchinit ⟨band, mu, hi⟩
    exact .inl (refused_of_raisesUnchanged hraises hexec ha hfault)

/-- Settles O9: the frame of R110 asks for `FATAL` first, of a legal record and of an illegal one. -/
theorem haltedBlockRefusesAllButStget : Obligations.HaltedBlockRefusesAllButStget := by
  intro s r rest hport hfatal hr
  refine ⟨_, ?_, answered_halted_eq (s.withHistory rest s.responses) 0#32 0#32⟩
  exact (step_command hport).trans (runRecord_halted (s := s.withHistory rest s.responses) hfatal hr)

/-- Settles O10: an idle step holds the state and a record keeps `FATAL`, so the event was the reset input. -/
theorem onlyResetLeavesHalted : Obligations.OnlyResetLeavesHalted := by
  intro s t hfatal hstep hleft
  cases hport : s.inbox with
  | nil =>
    rw [idleStepHoldsState s hport] at hstep
    cases hstep
    exact absurd hfatal (by simp [hleft])
  | cons event rest =>
    cases event with
    | reset => exact ⟨rest, rfl⟩
    | command r =>
      rw [step_command hport] at hstep
      have hkept := runRecord_keeps_fatal (s := s.withHistory rest s.responses) hfatal hstep
      exact absurd hkept (by simp [hleft])

end Sys2Proof.Machine


/-! PROOFS for the family 70_reset_and_hazards.md. What the reset input makes of a state is said by `resetInput`; here stand
the step that takes it and what `BUF` reads as while nothing has been written. -/

namespace Sys2Proof.Machine

/-- A step that finds the reset input at the port applies it to the state without that event; `STATUS` is not asked, so a
halted block takes it too (R311, R330). -/
theorem step_reset {s : State} {rest : List HostEvent} (h : s.inbox = .reset :: rest) :
    step s = .next (resetInput (s.withHistory rest s.responses)) := by
  rw [step, h]
  rfl

/-- With no byte written, every address reads as the free value of the state's reset count (log entries 4 and 10). -/
theorem bufByte_of_buf_nil {s : State} (h : s.buf = []) (a : Nat) : bufByte s a = Config.unwrittenByte s.epoch a := by
  rw [bufByte, h]
  rfl

theorem bufByte_resetInput (s : State) (a : Nat) : bufByte (resetInput s) a = Config.unwrittenByte (s.epoch + 1) a :=
  bufByte_of_buf_nil (s := resetInput s) rfl a

/-- Settles O2: the step applies `resetInput`, which keeps the host's two lists, counts one reset more and empties `BUF`. -/
theorem resetInputRestoresReset : Obligations.ResetInputRestoresReset := by
  intro s rest hport
  exact ⟨_, step_reset hport, rfl, bufByte_resetInput (s.withHistory rest s.responses)⟩

end Sys2Proof.Machine
